-- ==== Sys2Proof/Word.lean ====
section
/-! DEFINITION. The word types of SHA1CORE (R6, R9): 32-bit unsigned words, bytes, and the group of five
words that the Hash State and the working variables both are. -/

namespace Sys2Proof

/-- word32 of R9: 32 bits, unsigned, every addition modulo 2^32 (R10). -/
abbrev Word := BitVec 32

/-- A byte of one of the buffers MSG, PAD, BLK and DIG (R9). -/
abbrev Byte := BitVec 8

/-- Five words in order: H0..H4 (R13), or the working variables A, B, C, D, E (R14). -/
structure Five where
  x0 : Word
  x1 : Word
  x2 : Word
  x3 : Word
  x4 : Word
deriving DecidableEq, Repr

end Sys2Proof
end

