-- ==== Sys2Proof/Machine/Bits.lean ====
section
/-! DEFINITION. The arithmetic and byte-order primitives of R10 and R11. `add32` is `+` on `Word`. -/

namespace Sys2Proof.Machine

/-- ROTL32 of R10, used with n = 1, 5 and 30. -/
def rotl32 (x : Word) (n : Nat) : Word := (x <<< n) ||| (x >>> (32 - n))

/-- BE32 of R11 on four bytes, the first most significant. -/
def be32 (b0 b1 b2 b3 : Byte) : Word :=
  (b0.setWidth 32 <<< 24) ||| (b1.setWidth 32 <<< 16) ||| (b2.setWidth 32 <<< 8) ||| b3.setWidth 32

/-- `BE32(s, i)` of R11 on a byte list; every use has `i + 4 ≤ s.length`. -/
def be32List (s : List Byte) (i : Nat) : Word :=
  be32 (s.getD i 0) (s.getD (i + 1) 0) (s.getD (i + 2) 0) (s.getD (i + 3) 0)

/-- `BE32(buf, i)` of R11 on a buffer of fixed size; every use has `i + 4 ≤ n`. -/
def be32Vec {n : Nat} (buf : Vector Byte n) (i : Nat) : Word :=
  be32 (buf.getD i 0) (buf.getD (i + 1) 0) (buf.getD (i + 2) 0) (buf.getD (i + 3) 0)

/-- The four bytes of a bus word, bits 31:24 first (R42). -/
def wordBytes (v : Word) : List Byte :=
  [v.extractLsb' 24 8, v.extractLsb' 16 8, v.extractLsb' 8 8, v.extractLsb' 0 8]

/-- BE64bytes of R11: byte k is `(v >> (8 × (7 - k))) AND 0xFF`, as R66 writes it. -/
def be64Bytes (v : BitVec 64) : List Byte :=
  (List.range 8).map fun k => (v >>> (8 * (7 - k))).setWidth 8

/-- A byte list laid into a buffer of n bytes; every use has a list of length n. -/
def bufferOf (n : Nat) (s : List Byte) : Vector Byte n := Vector.ofFn fun i => s.getD i.val 0

/-- Component i of five words; every use has i < 5. -/
def fiveGet (f : Five) (i : Fin 5) : Word :=
  match i.val with
  | 0 => f.x0
  | 1 => f.x1
  | 2 => f.x2
  | 3 => f.x3
  | _ => f.x4

/-- Componentwise add32, the feed-forward of R82. -/
def fiveAdd (f g : Five) : Five :=
  ⟨f.x0 + g.x0, f.x1 + g.x1, f.x2 + g.x2, f.x3 + g.x3, f.x4 + g.x4⟩

/-- One status bit as a word, `zext_32` of R9. -/
def bitWord (b : Bool) : Word := (BitVec.ofBool b).setWidth 32

end Sys2Proof.Machine
end

