-- ==== Sys2Proof/Config.lean ====
section
/-! DEFINITION. What the spec leaves open: the parameters of R7 and R50, and the free values of R49 and R121.
Each is an opaque constant, so no proof can learn its value.
LATENCY (R7 (b), R96) is no constant here: a model has no clock, and how many Host accesses come before the
Core's complete step is data in the state (`State.input`, log entry 2). -/

namespace Sys2Proof.Config

/-- Which of the legal capacities this machine has; see `msgCap`. -/
opaque msgCapIndex : Fin (1073741791 + 1)

/-- MSG_CAP of R7 (a), the message buffer's capacity in bytes: any multiple of 4 from 4 to 2^32 - 128. -/
def msgCap : Nat := 4 * (msgCapIndex.val + 1)

/-- The constraint R7 (a) puts on MSG_CAP. -/
abbrev MsgCapLegal (cap : Nat) : Prop := cap % 4 = 0 ∧ 4 ≤ cap ∧ cap ≤ 2 ^ 32 - 128

/-- Bits 31:12 of the window's base address, left to the platform (R50). -/
opaque sha1BasePage : BitVec 20

/-- SHA1_BASE of R50: a multiple of 0x1000. -/
def sha1Base : Word := sha1BasePage ++ (0#12)

/-- FREE VALUE: the word that the d-th draw gives a Host read of a result register while BUSY = 1 (R49). -/
opaque freeWord : Nat → Word

/-- FREE VALUE: the byte that the d-th draw gives a read of a buffer byte never written since reset (R121, R19). -/
opaque freeByte : Nat → Byte

end Sys2Proof.Config
end

