-- ==== Sys2Proof/Machine/Constants.lean ====
section
/-! DEFINITION. The constants fixed in the hardware, which are not state (R12): IV (R23), the round constants K
(R79), the ID value (R25). -/

namespace Sys2Proof.Machine

/-- IV of R23. -/
def iv : Five := ⟨0x67452301, 0xEFCDAB89, 0x98BADCFE, 0x10325476, 0xC3D2E1F0⟩

/-- band(t) of R77, for t in [0, 80). -/
def band (t : Nat) : Nat := t / 20

/-- K_t of R79. -/
def roundK (t : Nat) : Word :=
  match band t with
  | 0 => 0x5A827999
  | 1 => 0x6ED9EBA1
  | 2 => 0x8F1BBCDC
  | _ => 0xCA62C1D6

/-- The value ID reads as (R25): the ASCII bytes of SHA1. -/
def idValue : Word := 0x53484131

/-- All five words zero, the reset value of A..E (R14). -/
def fiveZero : Five := ⟨0, 0, 0, 0, 0⟩

end Sys2Proof.Machine
end

