-- ==== Sys2Proof/Syntax.lean ====
section
/-! DEFINITION. The commands of SHA1CORE, one constructor per row of the opcode table (R59), and the fields of the
one command word format (R57). Commands carry no immediate and no register field (R58). -/

namespace Sys2Proof

/-- The seven commands of R59. -/
inductive Instr where
  | init
  | pad
  | split
  | sched
  | compress
  | format
  | hash
deriving DecidableEq, Repr

/-- The fields of a command word (R57): OP is bits 3:0, RSV is bits 31:4. -/
structure CmdWord where
  rsv : BitVec 28
  op : BitVec 4
deriving DecidableEq, Repr

end Sys2Proof
end

