-- ==== Sys2Proof/Machine/State.lean ====
section
/-! DEFINITION. The state of one SHA1CORE instance (R12), whole, and the model's own fields around it: the
machine's MSG_CAP, what happens at the block next, what the last Host read returned, and the counter of draws. -/

namespace Sys2Proof.Machine

/-- A byte buffer in random access memory, MSG (R18) or PAD (R19): (index, byte) pairs, indices strictly rising.
An index that is not listed has not been written since reset and holds no defined value (R121). -/
abbrev Memory := List Host.Cell

/-- One thing that happens at the block: a Host access (R8 (a), R38), the Core's turn to complete the command in
flight (R8 (b), R95), or the reset input (R119). Their order is the one total order of R52. -/
inductive Input where
  /-- `HostRead(a)`. -/
  | read (a : Word)
  /-- `HostWrite(a, v)`. -/
  | write (a v : Word)
  /-- The Core takes its complete step here, if one is enabled. -/
  | complete
  /-- The reset input is applied here. -/
  | reset
deriving DecidableEq, Repr

/-- Why the machine stops. -/
inductive Fault where
  /-- Raised by `step` at the Core's turn when PEND holds 0x8 to 0xF, which names no command: the spec gives that
  value no completion (R95). No run reaches such a state (PEND is set only by acceptance, R97). Safe. -/
  | reservedPend
deriving DecidableEq, Repr

/-- Why an instruction has no meaning. -/
inductive Refusal where
  /-- Answered only by an arm of `exec` for a command not modelled yet; there is none. Safe. -/
  | notModelled (mnemonic : String)
deriving DecidableEq, Repr

/-- The architectural state of R12, then the model's own fields. -/
@[ext]
structure State where
  /-- H0..H4 (R13). -/
  h : Five
  /-- A, B, C, D, E (R14). -/
  v : Five
  /-- W[0..79] (R15). -/
  w : Vector Word 80
  /-- BLK[0..63] (R16). -/
  blk : Vector Byte 64
  /-- DIG[0..39] (R17). -/
  dig : Vector Byte 40
  /-- MSG[0 .. MSG_CAP) (R18). -/
  msg : Memory
  /-- PAD[0 .. PAD_CAP) (R19). -/
  pad : Memory
  /-- MSGLEN (R29). -/
  msglen : BitVec 64
  /-- BLKSEL (R30). -/
  blksel : Word
  /-- PADLEN (R31). -/
  padlen : Word
  /-- NBLK (R32). -/
  nblk : Word
  /-- MSGPTR (R33). -/
  msgptr : Word
  /-- PADPTR (R34). -/
  padptr : Word
  /-- CTRL.IE (R26). -/
  ie : Bool
  /-- STATUS.DONE (R27). -/
  done : Bool
  /-- STATUS.ERR (R27). -/
  err : Bool
  /-- STATUS.DROP (R27). -/
  drop : Bool
  /-- STATUS.ERRCODE (R27). -/
  errcode : BitVec 4
  /-- PEND (R22): the opcode of the command in flight, 0 when there is none. STATUS.BUSY is PEND ≠ 0. -/
  pend : BitVec 4
  /-- MSG_CAP of this machine (R7 (a)); configuration, which no step changes. -/
  msgCap : Nat
  /-- What happens at the block next, first element first; when it is empty the Host is silent. -/
  input : List Input
  /-- The word the last Host read returned; `none` before the first. -/
  readData : Option Word
  /-- How many free values have been drawn. -/
  draws : Nat
deriving DecidableEq, Repr

/-- The state after reset of a machine with message capacity `cap` (R120). -/
def State.resetWith (cap : Nat) : State where
  h := iv
  v := fiveZero
  w := Vector.replicate 80 0
  blk := Vector.replicate 64 0
  dig := Vector.replicate 40 0
  msg := []
  pad := []
  msglen := 0
  blksel := 0
  padlen := 0
  nblk := 0
  msgptr := 0
  padptr := 0
  ie := false
  done := false
  err := false
  drop := false
  errcode := 0
  pend := 0
  msgCap := cap
  input := []
  readData := none
  draws := 0

/-- The machine right after reset (R120), its capacity the open parameter MSG_CAP (R7 (a)). -/
def State.reset : State := State.resetWith Config.msgCap

end Sys2Proof.Machine
end

