-- ==== Sys2Proof/Machine/Ops.lean ====
section
/-! DEFINITION. The named operations over the buffers and registers: reading and writing MSG and PAD, the register
writes, and the four things a command can do to the status: be dropped, be rejected, be accepted, complete.
Rejection is this hardware's exception (R98, R106) and clearing ERR its return (R108). -/

namespace Sys2Proof.Machine

/-! ### The byte buffers MSG and PAD -/

/-- The canonical form of a buffer: indices strictly rising. (An unlisted index has no value of its own, so no entry
can repeat it.) -/
abbrev Memory.wf (m : Memory) : Prop := m.Pairwise fun c c' => c.1 < c'.1

/-- The byte written at index x, `none` if none has been since reset. -/
def memGet : Memory → Nat → Option Byte
  | [], _ => none
  | (a, b) :: m, x => if a = x then some b else memGet m x

/-- The bytes of `s` at indices i, i+1, … -/
def cellsAt : Nat → List Byte → Memory
  | _, [] => []
  | i, b :: s => (i, b) :: cellsAt (i + 1) s

/-- `MemWrite(buf, i, len(s), s)` of R11. -/
def memWrite (m : Memory) (i : Nat) (s : List Byte) : Memory :=
  m.filter (fun c => c.1 < i) ++ cellsAt i s ++ m.filter (fun c => i + s.length ≤ c.1)

/-- Reads one byte and says how many values have been drawn after it. A byte not written since reset is a fresh draw
(R121: "Several reads of it may return different values"). -/
def memReadByte (m : Memory) (x d : Nat) : Byte × Nat :=
  match memGet m x with
  | some b => (b, d)
  | none => (Config.freeByte d, d + 1)

/-- `MemRead(buf, i, n)` of R11, with the number of draws before and after. -/
def memRead (m : Memory) (i : Nat) : Nat → Nat → List Byte × Nat
  | 0, d => ([], d)
  | n + 1, d =>
    let first := memReadByte m i d
    let rest := memRead m (i + 1) n first.2
    (first.1 :: rest.1, rest.2)

/-! ### Register writes -/

def State.withInput (s : State) (q : List Input) : State := { s with input := q }
def State.withDraws (s : State) (d : Nat) : State := { s with draws := d }
/-- A Host read returns `x`. -/
def State.reply (s : State) (x : Word) : State := { s with readData := some x }
def State.setH (s : State) (f : Five) : State := { s with h := f }
def State.setV (s : State) (f : Five) : State := { s with v := f }
def State.setW (s : State) (w : Vector Word 80) : State := { s with w := w }
def State.setBlk (s : State) (b : Vector Byte 64) : State := { s with blk := b }
def State.setDig (s : State) (b : Vector Byte 40) : State := { s with dig := b }
def State.setMsg (s : State) (m : Memory) : State := { s with msg := m }
/-- PAD, PADLEN and NBLK, which are written in one step (R32, R68). -/
def State.setPad (s : State) (m : Memory) (len n : Word) : State := { s with pad := m, padlen := len, nblk := n }
def State.setMsglen (s : State) (x : BitVec 64) : State := { s with msglen := x }
def State.setBlksel (s : State) (x : Word) : State := { s with blksel := x }
def State.setMsgptr (s : State) (x : Word) : State := { s with msgptr := x }
def State.setPadptr (s : State) (x : Word) : State := { s with padptr := x }
def State.setIe (s : State) (b : Bool) : State := { s with ie := b }

/-! ### Status: drop, reject, accept, complete -/

/-- The error causes of R99. -/
inductive CmdError where
  | illegal
  | lenOvf
  | lenCap
  | range
deriving DecidableEq, Repr

/-- ERRCODE of each cause (R99). -/
def errorCode : CmdError → BitVec 4
  | .illegal => 1
  | .lenOvf => 2
  | .lenCap => 3
  | .range => 4

/-- STATUS.BUSY (R22, R27): PEND ≠ 0. -/
def State.busy (s : State) : Bool := s.pend != 0

/-- A dropped Host write: DROP ← 1 and nothing else (R48, R107). -/
def State.dropWrite (s : State) : State := { s with drop := true }

/-- R97 and R98: DONE ← 0, ERR ← 1, ERRCODE ← code. -/
def State.reject (s : State) (e : CmdError) : State := { s with done := false, err := true, errcode := errorCode e }

/-- R97: DONE ← 0 and PEND ← op. -/
def State.accept (s : State) (op : BitVec 4) : State := { s with done := false, pend := op }

/-- The end of the Core's complete step (R95): PEND ← 0 and DONE ← 1. -/
def State.finish (s : State) : State := { s with pend := 0, done := true }

/-- R108, the return from an error: clears ERR and sets ERRCODE to 0. -/
def State.acknowledge (s : State) : State := { s with err := false, errcode := 0 }

/-- Presents a command to the sequencer (R97, R105): dropped while BUSY = 1 or ERR = 1, else rejected by the first
check that fails, else accepted. `check` is the outcome of the checks made once the word is known not to be dropped. -/
def present (op : BitVec 4) (check : Option CmdError) (s : State) : State :=
  if s.busy then s.dropWrite
  else if s.err then s.dropWrite
  else
    match check with
    | some e => s.reject e
    | none => s.accept op

/-- The two moments of a command (R95, R97; log entry 1). The command in flight completes: its writes, then PEND ← 0 and
DONE ← 1. Any other command is presented. -/
def runCommand (op : BitVec 4) (check : Option CmdError) (effect : State → State) (s : State) :
    Host.Outcome State Fault Refusal :=
  if s.pend = op then .next (effect s).finish else .next (present op check s)

end Sys2Proof.Machine
end

