-- ==== Sys2Proof/Machine/Operands.lean ====
section
/-! DEFINITION. The operands of the commands (R58), each read from a fixed register or buffer, and the acceptance checks
made on them (R99, R105). -/

namespace Sys2Proof.Machine

/-- The message length n = MSGLEN[63:0] (R58). -/
def msgLength (s : State) : Nat := s.msglen.toNat

/-- The message `MSG[0 .. n)` (R18, R58), with the draws after reading it. -/
def message (s : State) : List Byte × Nat := memRead s.msg 0 (msgLength s) s.draws

/-- Block j of the padded message, `PAD[64j .. 64j + 64)` (R69), with the draws after reading it. -/
def paddedBlock (j : Nat) (s : State) : List Byte × Nat := memRead s.pad (64 * j) 64 s.draws

/-- The block index j = BLKSEL, unsigned (R58). -/
def blockIndex (s : State) : Nat := s.blksel.toNat

/-- The checks of PAD and HASH in the order of R105: E_LENOVF (R101), then E_LENCAP (R102). -/
def lengthCheck (s : State) : Option CmdError :=
  if 2 ^ 61 ≤ msgLength s then some .lenOvf
  else if s.msgCap < msgLength s then some .lenCap
  else none

/-- The check of SPLIT: E_RANGE (R103). -/
def rangeCheck (s : State) : Option CmdError :=
  if s.nblk.toNat ≤ blockIndex s then some .range else none

end Sys2Proof.Machine
end

