-- ==== Sys2Proof/Machine/Compressor.lean ====
section
/-! DEFINITION. The Compressor: the mixing functions, the 80 rounds and the feed-forward (R77 to R82), and command
COMPRESS (R83), which reads W and never BLK (R84). -/

namespace Sys2Proof.Machine

/-- f_t of R78. -/
def mix (t : Nat) (x y z : Word) : Word :=
  match band t with
  | 0 => (x &&& y) ^^^ (~~~x &&& z)
  | 1 => x ^^^ y ^^^ z
  | 2 => (x &&& y) ^^^ (x &&& z) ^^^ (y &&& z)
  | _ => x ^^^ y ^^^ z

/-- Round t on (a, b, c, d, e) with schedule word `wt` (R80); all five new values come from the old ones. -/
def compressRound (t : Nat) (wt : Word) (f : Five) : Five where
  x0 := rotl32 f.x0 5 + mix t f.x1 f.x2 f.x3 + f.x4 + roundK t + wt
  x1 := f.x0
  x2 := rotl32 f.x1 30
  x3 := f.x2
  x4 := f.x3

/-- The working variables after rounds 0 to 79, started from `h` (R81). -/
def rounds (h : Five) (w : Vector Word 80) : Five :=
  (List.range 80).foldl (fun f t => compressRound t (w.getD t 0) f) h

/-- compress(h, w) of R81: the new state, by the feed-forward of R82, and the final working variables. -/
def compress (h : Five) (w : Vector Word 80) : Five × Five := (fiveAdd h (rounds h w), rounds h w)

/-- The completion of COMPRESS (R83). -/
def compressEffect (s : State) : State :=
  let r := compress s.h s.w
  (s.setV r.2).setH r.1

/-- COMPRESS (R83): no check of its own. -/
def execCompress (s : State) : Host.Outcome State Fault Refusal := runCommand 0x5 none compressEffect s

end Sys2Proof.Machine
end

