-- ==== Sys2Proof/Machine/Formatter.lean ====
section
/-! DEFINITION. The digest formatter: five words as 40 lowercase hexadecimal characters (R86 to R88) and command FORMAT
(R89). -/

namespace Sys2Proof.Machine

/-- hexchar(v) of R86: the ASCII code of the lowercase digit. -/
def hexChar (v : BitVec 4) : Byte :=
  if v.toNat ≤ 9 then BitVec.ofNat 8 (0x30 + v.toNat) else BitVec.ofNat 8 (0x61 + (v.toNat - 10))

/-- hex8(x) of R87: eight digits, the most significant first. -/
def hex8 (x : Word) : List Byte := (List.range 8).map fun k => hexChar (x.extractLsb' (28 - 4 * k) 4)

/-- digest(h0, …, h4) of R88: 40 bytes. -/
def digest (f : Five) : List Byte := hex8 f.x0 ++ hex8 f.x1 ++ hex8 f.x2 ++ hex8 f.x3 ++ hex8 f.x4

/-- The completion of FORMAT (R89). -/
def formatEffect (s : State) : State := s.setDig (bufferOf 40 (digest s.h))

/-- FORMAT (R89): no check of its own. -/
def execFormat (s : State) : Host.Outcome State Fault Refusal := runCommand 0x6 none formatEffect s

end Sys2Proof.Machine
end

