-- ==== Sys2Proof/Machine/Padder.lean ====
section
/-! DEFINITION. The Padder: the padding function in the closed form of R65, and command PAD (R68). -/

namespace Sys2Proof.Machine

/-- padlen(n) of R65. -/
def padlen (n : Nat) : Nat := 64 * ((n + 8) / 64) + 64

/-- z(n) = (55 - n) mod 64 of R65, the number of 0x00 bytes before the length field. -/
def zeroCount (n : Nat) : Nat := ((55 - (n : Int)) % 64).toNat

/-- pad(m) of R64 with the zero count of R65: the message, 0x80, the zeros, the bit length. -/
def padMessage (m : List Byte) : List Byte :=
  m ++ [(0x80 : Byte)] ++ List.replicate (zeroCount m.length) 0 ++ be64Bytes (BitVec.ofNat 64 (8 * m.length))

/-- The completion of PAD (R68): PAD[0 .. N), PADLEN and NBLK. -/
def padEffect (s : State) : State :=
  let m := message s
  let n := padlen (msgLength s)
  (s.setPad (memWrite s.pad 0 (padMessage m.1)) (BitVec.ofNat 32 n) (BitVec.ofNat 32 (n / 64))).withDraws m.2

/-- PAD (R68). -/
def execPad (s : State) : Host.Outcome State Fault Refusal := runCommand 0x2 (lengthCheck s) padEffect s

end Sys2Proof.Machine
end

