-- ==== Sys2Proof/Machine/Scheduler.lean ====
section
/-! DEFINITION. The Message Scheduler: the 80-word expansion of a block (R73, R74) and command SCHED (R76). -/

namespace Sys2Proof.Machine

/-- W[i] ← BE32(BLK, 4i) (R73). -/
def loadWord (blk : Vector Byte 64) (w : Vector Word 80) (i : Nat) : Vector Word 80 :=
  w.setIfInBounds i (be32Vec blk (4 * i))

/-- W[i] ← ROTL32(W[i-3] XOR W[i-8] XOR W[i-14] XOR W[i-16], 1) (R74). -/
def expandWord (w : Vector Word 80) (i : Nat) : Vector Word 80 :=
  w.setIfInBounds i
    (rotl32 (w.getD (i - 3) 0 ^^^ w.getD (i - 8) 0 ^^^ w.getD (i - 14) 0 ^^^ w.getD (i - 16) 0) 1)

/-- The two loops of R76, in order: i in [0, 16) from the block, then i in [16, 80) from the words before. Every word is
written, so `w` does not show in the result. -/
def schedule (blk : Vector Byte 64) (w : Vector Word 80) : Vector Word 80 :=
  (List.range' 16 64).foldl expandWord ((List.range 16).foldl (loadWord blk) w)

/-- The completion of SCHED (R76). -/
def schedEffect (s : State) : State := s.setW (schedule s.blk s.w)

/-- SCHED (R76): no check of its own. -/
def execSched (s : State) : Host.Outcome State Fault Refusal := runCommand 0x4 none schedEffect s

end Sys2Proof.Machine
end

