-- ==== Sys2Proof/Machine/Splitter.lean ====
section
/-! DEFINITION. The Block Splitter: command SPLIT (R72). -/

namespace Sys2Proof.Machine

/-- BLK ← B_j (R69, R72). -/
def splitBlock (j : Nat) (s : State) : State :=
  let b := paddedBlock j s
  (s.setBlk (bufferOf 64 b.1)).withDraws b.2

/-- The completion of SPLIT (R72), with j = BLKSEL. -/
def splitEffect (s : State) : State := splitBlock (blockIndex s) s

/-- SPLIT (R72). -/
def execSplit (s : State) : Host.Outcome State Fault Refusal := runCommand 0x3 (rangeCheck s) splitEffect s

end Sys2Proof.Machine
end

