-- ==== Sys2Proof/Machine/Driver.lean ====
section
/-! DEFINITION. The Digest Driver: commands INIT (R90) and HASH (R91). -/

namespace Sys2Proof.Machine

/-- The completion of INIT (R90): H ← IV. -/
def initEffect (s : State) : State := s.setH iv

/-- INIT (R90): no check of its own. -/
def execInit (s : State) : Host.Outcome State Fault Refusal := runCommand 0x1 none initEffect s

/-- One pass of HASH's loop (R91): split block j, schedule it, compress it. -/
def hashBlock (s : State) (j : Nat) : State := compressEffect (schedEffect (splitBlock j s))

/-- The completion of HASH (R91), its writes in the order written there. -/
def hashEffect (s : State) : State :=
  formatEffect ((List.range (padlen (msgLength s) / 64)).foldl hashBlock (padEffect (initEffect s)))

/-- HASH (R91): the checks of PAD. -/
def execHash (s : State) : Host.Outcome State Fault Refusal := runCommand 0x7 (lengthCheck s) hashEffect s

end Sys2Proof.Machine
end

