-- ==== Sys2Proof/Machine/Dispatch.lean ====
section
/-! DEFINITION. From a command to its meaning: one arm per constructor of `Instr`. -/

namespace Sys2Proof.Machine

def exec (i : Instr) (s : State) : Host.Outcome State Fault Refusal :=
  match i with
  | .init => Sys2Proof.Machine.execInit s
  | .pad => Sys2Proof.Machine.execPad s
  | .split => Sys2Proof.Machine.execSplit s
  | .sched => Sys2Proof.Machine.execSched s
  | .compress => Sys2Proof.Machine.execCompress s
  | .format => Sys2Proof.Machine.execFormat s
  | .hash => Sys2Proof.Machine.execHash s

end Sys2Proof.Machine
end

