-- ==== Sys2Proof/Decode.lean ====
section
/-! DEFINITION. The decoder of command words (R57, R59, R60), total on every 32-bit word and refusing by name, and
the encoder written from the same table. A command is one 32-bit word, decoded whole (R57, R61). -/

namespace Sys2Proof

/-- Why a word is illegal (R60). Both reasons are reported to the Host as E_ILLEGAL. -/
inductive Illegal where
  /-- RSV ≠ 0. -/
  | reservedBits
  /-- OP is 0x0 or one of 0x8 to 0xF. -/
  | reservedOpcode
deriving DecidableEq, Repr

/-- What the decoder answers. -/
inductive Decoded where
  | instr (i : Instr)
  | illegal (r : Illegal)
deriving DecidableEq, Repr

/-- The fields of a command word (R57). -/
def fieldsOf (w : Word) : CmdWord := ⟨w.extractLsb' 4 28, w.extractLsb' 0 4⟩

/-- The word with the given fields (R57). -/
def wordOf (c : CmdWord) : Word := c.rsv ++ c.op

/-- The opcode map of R59, from command to OP. -/
def opcodeOf : Instr → BitVec 4
  | .init => 0x1
  | .pad => 0x2
  | .split => 0x3
  | .sched => 0x4
  | .compress => 0x5
  | .format => 0x6
  | .hash => 0x7

/-- The opcode map of R59, from OP to command; the reserved values 0x0 and 0x8 to 0xF name none. -/
def commandOf (op : BitVec 4) : Option Instr :=
  match op.toNat with
  | 0x1 => some .init
  | 0x2 => some .pad
  | 0x3 => some .split
  | 0x4 => some .sched
  | 0x5 => some .compress
  | 0x6 => some .format
  | 0x7 => some .hash
  | _ => none

/-- R59 and R60: the command a word presents, or why it is illegal. -/
def decode (w : Word) : Decoded :=
  if (fieldsOf w).rsv ≠ 0 then .illegal .reservedBits
  else
    match commandOf (fieldsOf w).op with
    | some i => .instr i
    | none => .illegal .reservedOpcode

/-- The word that presents a command (R59): RSV = 0 and the command's OP. -/
def encode (i : Instr) : Word := wordOf ⟨0, opcodeOf i⟩

/-- The decoder on a row of the opcode table: `w` is the command word's bits, bit 0 the least significant. -/
def decodeTableWord (nbits w : Nat) : Option Instr :=
  if w % 2 ^ nbits < 2 ^ 32 then
    match decode (BitVec.ofNat 32 (w % 2 ^ nbits)) with
    | .instr i => some i
    | .illegal _ => none
  else none

end Sys2Proof
end

