-- ==== Sys2Proof/Machine/Flags.lean ====
section
/-! DEFINITION. STATUS and CTRL as words, the write-one-to-clear write of STATUS (R27), and the `irq` output (R110).
These are the only flags: no operation records a carry, overflow, zero or sign (R21). -/

namespace Sys2Proof.Machine

/-- STATUS as read: BUSY bit 0, DONE bit 1, ERR bit 2, DROP bit 3, ERRCODE bits 11:8, the rest 0 (R27, R40). -/
def statusWord (s : State) : Word :=
  (s.errcode.setWidth 32 <<< 8) ||| (bitWord s.drop <<< 3) ||| (bitWord s.err <<< 2) ||| (bitWord s.done <<< 1) |||
    bitWord s.busy

/-- CTRL as read: IE bit 0, the rest 0 (R26). -/
def ctrlWord (s : State) : Word := bitWord s.ie

/-- DONE and DROP after a write of v to STATUS (R27). -/
def clearDoneDrop (v : Word) (s : State) : State :=
  { s with done := s.done && !v.getLsbD 1, drop := s.drop && !v.getLsbD 3 }

/-- A write of v to STATUS (R27): each of DONE, ERR and DROP is cleared where v has a 1, and ERRCODE with ERR. -/
def statusWrite (v : Word) (s : State) : State :=
  if v.getLsbD 2 then (clearDoneDrop v s).acknowledge else clearDoneDrop v s

/-- The level of the `irq` output (R110). -/
def irq (s : State) : Bool := s.ie && (s.done || s.err)

end Sys2Proof.Machine
end

