-- ==== Sys2Proof/Machine/RegisterMap.lean ====
section
/-! DEFINITION. The register window of R24: the names, their offsets, which register an offset names, and what the
registers without side effects read as (R40). -/

namespace Sys2Proof.Machine

/-- The registers of R24 under the names R62 gives them. -/
inductive Reg where
  | id
  | ctrl
  | status
  | cmd
  | msglenLo
  | msglenHi
  | blksel
  | padlen
  | nblk
  | msgptr
  | msgdata
  | padptr
  | paddata
  | h (i : Fin 5)
  | v (i : Fin 5)
  | blkw (k : Fin 16)
  | w (k : Fin 80)
  | digw (k : Fin 10)
deriving DecidableEq, Repr

/-- The byte offset of a register in the window (R24). -/
def regOffset : Reg → Nat
  | .id => 0x000
  | .ctrl => 0x004
  | .status => 0x008
  | .cmd => 0x00C
  | .msglenLo => 0x010
  | .msglenHi => 0x014
  | .blksel => 0x018
  | .padlen => 0x01C
  | .nblk => 0x020
  | .msgptr => 0x024
  | .msgdata => 0x028
  | .padptr => 0x02C
  | .paddata => 0x030
  | .h i => 0x040 + 4 * i.val
  | .v i => 0x060 + 4 * i.val
  | .blkw k => 0x100 + 4 * k.val
  | .w k => 0x200 + 4 * k.val
  | .digw k => 0x400 + 4 * k.val

/-- The register at a word-aligned offset below 0x1000; `none` where R36 reserves the offset. -/
def regAt (off : Nat) : Option Reg :=
  if off < 0x034 then
    match off / 4 with
    | 0 => some .id
    | 1 => some .ctrl
    | 2 => some .status
    | 3 => some .cmd
    | 4 => some .msglenLo
    | 5 => some .msglenHi
    | 6 => some .blksel
    | 7 => some .padlen
    | 8 => some .nblk
    | 9 => some .msgptr
    | 10 => some .msgdata
    | 11 => some .padptr
    | _ => some .paddata
  else if 0x040 ≤ off ∧ off < 0x054 then some (.h (Fin.ofNat 5 ((off - 0x040) / 4)))
  else if 0x060 ≤ off ∧ off < 0x074 then some (.v (Fin.ofNat 5 ((off - 0x060) / 4)))
  else if 0x100 ≤ off ∧ off < 0x140 then some (.blkw (Fin.ofNat 16 ((off - 0x100) / 4)))
  else if 0x200 ≤ off ∧ off < 0x340 then some (.w (Fin.ofNat 80 ((off - 0x200) / 4)))
  else if 0x400 ≤ off ∧ off < 0x428 then some (.digw (Fin.ofNat 10 ((off - 0x400) / 4)))
  else none

/-- `off = a[11:2] × 4` (R38): bits 1:0 are ignored and bits above 11 never reach the block. -/
def offsetOf (a : Word) : Nat := (a.extractLsb' 2 10).toNat * 4

/-- RESULT_OFFSETS of R40: what reads as any value while BUSY = 1 (R49). -/
def isResult : Reg → Bool
  | .padlen | .nblk | .msgdata | .paddata | .h _ | .v _ | .blkw _ | .w _ | .digw _ => true
  | .id | .ctrl | .status | .cmd | .msglenLo | .msglenHi | .blksel | .msgptr | .padptr => false

/-- What a register other than the two data ports reads as (R40, R35). -/
def regValue (s : State) : Reg → Word
  | .id => idValue
  | .ctrl => ctrlWord s
  | .status => statusWord s
  | .cmd => 0
  | .msglenLo => s.msglen.extractLsb' 0 32
  | .msglenHi => s.msglen.extractLsb' 32 32
  | .blksel => s.blksel
  | .padlen => s.padlen
  | .nblk => s.nblk
  | .msgptr => s.msgptr
  | .msgdata => 0
  | .padptr => s.padptr
  | .paddata => 0
  | .h i => fiveGet s.h i
  | .v i => fiveGet s.v i
  | .blkw k => be32Vec s.blk (4 * k.val)
  | .w k => s.w.getD k.val 0
  | .digw k => be32Vec s.dig (4 * k.val)

end Sys2Proof.Machine
end

