-- ==== Sys2Proof/Machine/Bus.lean ====
section
/-! DEFINITION. Host accesses (R38 to R40): reads, writes, the two data ports (R45, R46), and what the window does while
a command runs (R48, R49). -/

namespace Sys2Proof.Machine

/-- What one turn at the block comes to: a state, or a command whose meaning is to be run. -/
inductive Turn where
  | quiet (s : State)
  | command (i : Instr) (s : State)
  | stuck (f : Fault)
deriving DecidableEq, Repr

/-! ### The data ports -/

/-- MSGPTR ← (p + 4) mod 2^32 (R45). -/
def advanceMsgptr (s : State) : State := s.setMsgptr (s.msgptr + 4)

/-- PADPTR ← (p + 4) mod 2^32 (R46). -/
def advancePadptr (s : State) : State := s.setPadptr (s.padptr + 4)

/-- A write of v to MSGDATA with BUSY = 0 (R45); the range is compared on unbounded integers. -/
def msgDataWrite (v : Word) (s : State) : State :=
  if s.msgptr.toNat + 4 ≤ s.msgCap then advanceMsgptr (s.setMsg (memWrite s.msg s.msgptr.toNat (wordBytes v)))
  else advanceMsgptr s.dropWrite

/-- A read of MSGDATA with BUSY = 0 (R45). -/
def msgDataRead (s : State) : State :=
  if s.msgptr.toNat + 4 ≤ s.msgCap then
    let r := memRead s.msg s.msgptr.toNat 4 s.draws
    advanceMsgptr ((s.reply (be32List r.1 0)).withDraws r.2)
  else advanceMsgptr (s.reply 0)

/-- A read of PADDATA with BUSY = 0 (R46). -/
def padDataRead (s : State) : State :=
  if s.padptr.toNat + 4 ≤ s.padlen.toNat then
    let r := memRead s.pad s.padptr.toNat 4 s.draws
    advancePadptr ((s.reply (be32List r.1 0)).withDraws r.2)
  else advancePadptr (s.reply 0)

/-! ### Reads and writes -/

/-- A read that returns an unspecified word, a fresh draw, and has no other effect (R49). -/
def drawRead (s : State) : State := (s.reply (Config.freeWord s.draws)).withDraws (s.draws + 1)

/-- `HostRead(a)` (R40). -/
def hostRead (a : Word) (s : State) : State :=
  match regAt (offsetOf a) with
  | none => s.reply 0
  | some r =>
    if s.busy && isResult r then drawRead s
    else
      match r with
      | .msgdata => msgDataRead s
      | .paddata => padDataRead s
      | r => s.reply (regValue s r)

/-- A word presented by a CMD write while BUSY = 0 (R97): an illegal word is rejected with E_ILLEGAL unless it is dropped
(R100); a legal one is the command to run. -/
def commandWrite (v : Word) (s : State) : Turn :=
  match decode v with
  | .illegal _ => .quiet (present 0 (some .illegal) s)
  | .instr i => .command i s

/-- `HostWrite(a, v)` (R39). Read-only registers, windows and reserved offsets take no write (R36). -/
def hostWrite (a v : Word) (s : State) : Turn :=
  if s.busy ∧ regAt (offsetOf a) ≠ some .ctrl ∧ regAt (offsetOf a) ≠ some .status then .quiet s.dropWrite
  else
    match regAt (offsetOf a) with
    | some .ctrl => .quiet (s.setIe (v.getLsbD 0))
    | some .status => .quiet (statusWrite v s)
    | some .cmd => commandWrite v s
    | some .msglenLo => .quiet (s.setMsglen (s.msglen.extractLsb' 32 32 ++ v))
    | some .msglenHi => .quiet (s.setMsglen (v ++ s.msglen.extractLsb' 0 32))
    | some .blksel => .quiet (s.setBlksel v)
    | some .msgptr => .quiet (s.setMsgptr (v &&& 0xFFFFFFFC))
    | some .msgdata => .quiet (msgDataWrite v s)
    | some .padptr => .quiet (s.setPadptr (v &&& 0xFFFFFFFC))
    | some .id | some .padlen | some .nblk | some .paddata | some (.h _) | some (.v _) | some (.blkw _) | some (.w _)
    | some (.digw _) | none => .quiet s

end Sys2Proof.Machine
end

