-- ==== Sys2Proof/Machine/Sequencer.lean ====
section
/-! DEFINITION. What happens at the block next: a Host access, the Core's complete step, the reset input, or nothing
(R8, R52, R95, R96, R119). -/

namespace Sys2Proof.Machine

/-- The Core's turn (R95): enabled exactly when PEND ≠ 0, and then the command PEND names completes. With PEND = 0 the
block is idle and holds all state (R118). -/
def coreTurn (s : State) : Turn :=
  if s.pend = 0 then .quiet s
  else
    match commandOf s.pend with
    | some i => .command i s
    | none => .stuck .reservedPend

/-- The reset input (R119): every state element to its reset value (R120). The machine's capacity, what happens next, the
Host's last read and the count of draws are not state of the block and stay. -/
def resetInput (s : State) : State :=
  { State.resetWith s.msgCap with input := s.input, readData := s.readData, draws := s.draws }

/-- The next turn, taken from the front of `input`. When `input` is empty the Host is silent, and the Core completes the
command in flight: an enabled complete step is eventually taken (R96). -/
def nextTurn (s : State) : Turn :=
  match s.input with
  | [] => coreTurn s
  | .read a :: q => .quiet (hostRead a (s.withInput q))
  | .write a v :: q => hostWrite a v (s.withInput q)
  | .complete :: q => coreTurn (s.withInput q)
  | .reset :: q => .quiet (resetInput (s.withInput q))

end Sys2Proof.Machine
end

