-- ==== Sys2Proof/Machine/Step.lean ====
section
/-! DEFINITION. One step of the machine, and the placing of a command word where the next step takes it. -/

namespace Sys2Proof.Machine

/-- One step of R52's total order: what `nextTurn` says happens, and the meaning of the command it names. -/
def step (s : State) : Host.Outcome State Fault Refusal :=
  match nextTurn s with
  | .quiet t => .next t
  | .command i t => exec i t
  | .stuck f => .fault f

/-- `s` with a Host write of the word to CMD as what happens next (R28, R56; log entry 3). -/
def State.withFetchWord (s : State) (nbits w : Nat) : State :=
  s.withInput (.write 0x00C (BitVec.ofNat 32 (w % 2 ^ nbits)) :: s.input)

end Sys2Proof.Machine
end

