-- ==== Sys2Proof/Machine/HostProgram.lean ====
section
/-! DEFINITION. The Host assembly of R62 and R63 as lists of Host accesses. Host-side control flow and variables run on the
Host and are no part of the block (R62); `wait` is the polling read of STATUS, repeated by the Host. -/

namespace Sys2Proof.Machine

/-- The address of a register in the Host's address space, `SHA1_BASE + off(NAME)` (R62, R50). -/
def hostAddress (r : Reg) : Word := Config.sha1Base + BitVec.ofNat 32 (regOffset r)

/-- `wr NAME, imm32` (R62). -/
def asmWrite (r : Reg) (v : Word) : Input := .write (hostAddress r) v

/-- `rd NAME` (R62); the Host finds the value in `State.readData`. -/
def asmRead (r : Reg) : Input := .read (hostAddress r)

/-- `cmd NAME` (R63). -/
def asmCommand (i : Instr) : Input := asmWrite .cmd (encode i)

/-- `clr` (R63): clears DONE, ERR, DROP and ERRCODE. -/
def asmClear : Input := asmWrite .status 0xE

/-- One poll of `wait` (R63). -/
def asmPoll : Input := asmRead .status

/-- `load s` (R63): MSGPTR ← 0, the message's words with the last one filled up with 0x00 bytes, MSGLEN ← its length. -/
def asmLoad (s : List Byte) : List Input :=
  [asmWrite .msgptr 0] ++
    ((List.range ((s.length + 3) / 4)).map fun q => asmWrite .msgdata (be32List (s ++ [0, 0, 0]) (4 * q))) ++
    [asmWrite .msglenLo ((BitVec.ofNat 64 s.length).extractLsb' 0 32),
     asmWrite .msglenHi ((BitVec.ofNat 64 s.length).extractLsb' 32 32)]

/-- `readdigest` (R63): DIGW0 to DIGW9 in order. -/
def asmReadDigest : List Input := (List.finRange 10).map fun k => asmRead (.digw k)

end Sys2Proof.Machine
end

