-- ==== Sys2Proof/Safety.lean ====
section
/-! DEFINITION. The terms claims use: the invariant of every reachable state, the states in which a command runs to its
end, and the stage path of R92. -/

namespace Sys2Proof.Machine

/-- PAD_CAP of R7, derived from MSG_CAP by R65. -/
def padCap (cap : Nat) : Nat := padlen cap

/-- What holds of every state a run reaches. -/
structure Invariant (s : State) : Prop where
  /-- R7 (a). -/
  capLegal : Config.MsgCapLegal s.msgCap
  msgWf : Memory.wf s.msg
  padWf : Memory.wf s.pad
  /-- MSG is indexed [0, MSG_CAP) (R18, R37). -/
  msgBound : ∀ c ∈ s.msg, c.1 < s.msgCap
  /-- PAD is indexed [0, PAD_CAP) (R19, R37). -/
  padBound : ∀ c ∈ s.pad, c.1 < padCap s.msgCap
  /-- R31. -/
  padlenBlocks : s.padlen.toNat % 64 = 0
  padlenBound : s.padlen.toNat ≤ padCap s.msgCap
  /-- R32. -/
  nblkPadlen : s.nblk.toNat * 64 = s.padlen.toNat
  /-- `PAD[0 .. PADLEN)` has been written, so no draw is made for it (R121). -/
  padWritten : ∀ i, i < s.padlen.toNat → (memGet s.pad i).isSome
  /-- R33. -/
  msgptrAligned : s.msgptr.toNat % 4 = 0
  /-- R34. -/
  padptrAligned : s.padptr.toNat % 4 = 0
  /-- R27: ERRCODE holds 0 whenever ERR = 0. -/
  errcodeClear : s.err = false → s.errcode = 0
  /-- R99: a reported error has a code from 1 to 4. -/
  errcodeRange : s.err = true → 1 ≤ s.errcode.toNat ∧ s.errcode.toNat ≤ 4
  /-- R22, R97: PEND is 0 or the opcode of a command. -/
  pendLegal : s.pend.toNat ≤ 7
  /-- While BUSY = 1 DONE and ERR are 0 (R97, R104). -/
  busyClear : s.busy = true → s.done = false ∧ s.err = false
  /-- The acceptance checks of PAD and HASH still hold at completion (R95, R104). -/
  lengthHeld : s.pend = 0x2 ∨ s.pend = 0x7 → msgLength s ≤ s.msgCap
  /-- The acceptance check of SPLIT still holds at completion (R95, R104). -/
  rangeHeld : s.pend = 0x3 → blockIndex s < s.nblk.toNat

/-- No command in flight and no error to acknowledge: a CMD write is not dropped (R97). -/
abbrev Idle (s : State) : Prop := s.pend = 0 ∧ s.err = false

/-- Every byte of `MSG[0 .. n)` has been written since reset: the premise R121 asks of claims about results. -/
abbrev MessageWritten (s : State) : Prop := ∀ i, i < msgLength s → (memGet s.msg i).isSome

/-- Goes on from a next state, and stops where the first outcome stops. -/
def andThen (o : Host.Outcome State Fault Refusal) (f : State → Host.Outcome State Fault Refusal) :
    Host.Outcome State Fault Refusal :=
  match o with
  | .next s => f s
  | .fault r => .fault r
  | .refused r => .refused r

/-- A command presented and then completed, with no Host access between. -/
def runCommandWhole (i : Instr) (s : State) : Host.Outcome State Fault Refusal := andThen (exec i s) (exec i)

/-- One block of the stage path of R92: BLKSEL ← j; SPLIT; SCHED; COMPRESS. -/
def stageBlock (j : Nat) (s : State) : Host.Outcome State Fault Refusal :=
  andThen (runCommandWhole .split (s.setBlksel (BitVec.ofNat 32 j))) fun s =>
    andThen (runCommandWhole .sched s) (runCommandWhole .compress)

/-- The blocks of a list in order. -/
def stageBlocks : List Nat → State → Host.Outcome State Fault Refusal
  | [], s => .next s
  | j :: js, s => andThen (stageBlock j s) (stageBlocks js)

/-- The stage path of R92: INIT; PAD; every block below NBLK in ascending order; FORMAT. -/
def stagePath (s : State) : Host.Outcome State Fault Refusal :=
  andThen (runCommandWhole .init s) fun s =>
    andThen (runCommandWhole .pad s) fun s =>
      andThen (stageBlocks (List.range s.nblk.toNat) s) (runCommandWhole .format)

end Sys2Proof.Machine
end

