-- ==== Sys2Proof/WellFormed.lean ====
section
/-! DEFINITION. Well-formedness: a command word is legal when RSV = 0 and OP is one of 0x1 to 0x7 (R60); a command
itself has no operand field that could be wrong (R58); MSG_CAP obeys R7 (a). -/

namespace Sys2Proof

/-- RSV must be 0 (R57). -/
def CmdWord.rsvZero (c : CmdWord) : Bool := c.rsv == 0

/-- OP names a command: not 0x0 and not 0x8 to 0xF (R60). -/
def CmdWord.opDefined (c : CmdWord) : Bool := decide (1 ≤ c.op.toNat ∧ c.op.toNat ≤ 7)

/-- A legal command word (R60). -/
def CmdWord.wellFormed (c : CmdWord) : Bool := c.rsvZero && c.opDefined

/-- A command has no operand field (R58), so every term of `Instr` is well formed. -/
def Instr.wellFormed : Instr → Bool
  | .init | .pad | .split | .sched | .compress | .format | .hash => true

end Sys2Proof
end

