-- ==== Sys2Proof/Certificates/Slice0/Obligations.lean ====
section
/-! DEFINITION. The statements about SHA1CORE, each with the rule of the spec it comes from, and before them a reference
reading of the rules, written apart from the machine, that some of them compare the machine with. What happens at the block,
a Host access, the Core's turn or the reset input, is the front of the state's `input` (log entry 2), which the step takes
off; the statements speak of it in those terms. -/

open Sys2Proof Sys2Proof.Machine

/-! ### A reference reading of the rules, apart from the machine -/

namespace Sys2Proof.Spec

/-- The word of R59's table for each command. -/
def commandWord : Instr → Word
  | .init => 0x00000001
  | .pad => 0x00000002
  | .split => 0x00000003
  | .sched => 0x00000004
  | .compress => 0x00000005
  | .format => 0x00000006
  | .hash => 0x00000007

/-- OP of R59's table for each command, as PEND holds it. -/
def opcode : Instr → BitVec 4
  | .init => 1
  | .pad => 2
  | .split => 3
  | .sched => 4
  | .compress => 5
  | .format => 6
  | .hash => 7

/-- The loop of R64: 0x00 bytes until the length is 56 modulo 64, for at most `k` rounds. -/
def zerosUntil56 : Nat → List Byte → List Byte
  | 0, p => p
  | k + 1, p => if p.length % 64 ≠ 56 then zerosUntil56 k (p ++ [0x00]) else p

/-- pad(m) as the loop of R64 writes it. 64 rounds are enough, since the loop adds at most 63 bytes. -/
def padLoop (m : List Byte) : List Byte :=
  zerosUntil56 64 (m ++ [0x80]) ++
    (List.range 8).map fun k => ((BitVec.ofNat 64 (8 * m.length) >>> (8 * (7 - k))) &&& 0xFF#64).setWidth 8

/-- `BE32(s, i)` as the concatenation of four bytes, the first in bits 31:24. -/
def wordAt (s : List Byte) (i : Nat) : Word := s.getD i 0 ++ s.getD (i + 1) 0 ++ s.getD (i + 2) 0 ++ s.getD (i + 3) 0

/-- The message schedule of a 64-byte block, each word appended to the words before it (R73, R74). -/
def scheduleList (block : List Byte) : List Word :=
  (List.range 64).foldl
    (fun w k => w ++ [(w.getD (k + 13) 0 ^^^ w.getD (k + 8) 0 ^^^ w.getD (k + 2) 0 ^^^ w.getD k 0).rotateLeft 1])
    ((List.range 16).map fun i => wordAt block (4 * i))

/-- f_t of R78 in the forms with OR, which R78 gives as equal. -/
def mixing (t : Nat) (x y z : Word) : Word :=
  if t < 20 then (x &&& y) ||| (~~~x &&& z)
  else if t < 40 then x ^^^ y ^^^ z
  else if t < 60 then (x &&& y) ||| (x &&& z) ||| (y &&& z)
  else x ^^^ y ^^^ z

/-- K_t of R79. -/
def roundConst (t : Nat) : Word :=
  if t < 20 then 0x5A827999 else if t < 40 then 0x6ED9EBA1 else if t < 60 then 0x8F1BBCDC else 0xCA62C1D6

/-- R80 from round `t` on, for the schedule words `w` in order. -/
def roundsFrom : Nat → List Word → Word × Word × Word × Word × Word → Word × Word × Word × Word × Word
  | _, [], x => x
  | t, wt :: w, (a, b, c, d, e) =>
    roundsFrom (t + 1) w (a.rotateLeft 5 + mixing t b c d + e + roundConst t + wt, a, b.rotateLeft 30, c, d)

/-- compress(h, w) of R81: the new state and the final working variables. -/
def compressList (h : Five) (w : List Word) : Five × Five :=
  match roundsFrom 0 w (h.x0, h.x1, h.x2, h.x3, h.x4) with
  | (a, b, c, d, e) => (⟨h.x0 + a, h.x1 + b, h.x2 + c, h.x3 + d, h.x4 + e⟩, ⟨a, b, c, d, e⟩)

/-- The constants of §4.5 (R23). -/
def initialState : Five := ⟨0x67452301, 0xEFCDAB89, 0x98BADCFE, 0x10325476, 0xC3D2E1F0⟩

/-- Block j of the padded message (R69). -/
def block (p : List Byte) (j : Nat) : List Byte := (p.drop (64 * j)).take 64

/-- The Hash State after the first `j` blocks of a padded message (R93). -/
def chain (p : List Byte) : Nat → Five
  | 0 => initialState
  | j + 1 => (compressList (chain p j) (scheduleList (block p j))).1

/-- The SHA-1 state of a message (R91). -/
def sha1 (m : List Byte) : Five := chain (padLoop m) ((padLoop m).length / 64)

/-- The lowercase hexadecimal digits (R86), as ASCII codes. -/
def hexDigits : List Byte :=
  [0x30, 0x31, 0x32, 0x33, 0x34, 0x35, 0x36, 0x37, 0x38, 0x39, 0x61, 0x62, 0x63, 0x64, 0x65, 0x66]

/-- Character p of the digest (R88): the digit for bits 31 - 4(p mod 8) down of word floor(p / 8). -/
def digestChar (h : Five) (p : Nat) : Byte :=
  hexDigits.getD ((([h.x0, h.x1, h.x2, h.x3, h.x4].getD (p / 8) 0) >>> (28 - 4 * (p % 8))).toNat % 16) 0

/-- MSG[0 .. n) has been written since reset and holds `m`. -/
def MessageIs (s : State) (m : List Byte) : Prop :=
  m.length = s.msglen.toNat ∧ ∀ i, i < m.length → memGet s.msg i = m[i]?

/-- What a CMD write of v does to the status of a block in state `s` (R97, R105), the conditions in R105's order. -/
def cmdWrite (v : Word) (s : State) : State :=
  if s.pend ≠ 0 then { s with drop := true }
  else if s.err = true then { s with drop := true }
  else if v = 0 ∨ 8 ≤ v.toNat then { s with done := false, err := true, errcode := 1 }
  else if (v = 2 ∨ v = 7) ∧ 2 ^ 61 ≤ s.msglen.toNat then { s with done := false, err := true, errcode := 2 }
  else if (v = 2 ∨ v = 7) ∧ s.msgCap < s.msglen.toNat then { s with done := false, err := true, errcode := 3 }
  else if v = 3 ∧ s.nblk.toNat ≤ s.blksel.toNat then { s with done := false, err := true, errcode := 4 }
  else { s with done := false, pend := v.setWidth 4 }

/-- The offsets of R40 whose reads are exact at all times or exact while BUSY = 0, but for the two data ports. -/
def readValue (s : State) (off : Nat) : Word :=
  if off = 0x000 then 0x53484131
  else if off = 0x004 then (if s.ie then 1 else 0)
  else if off = 0x008 then
    BitVec.ofNat 32 (s.errcode.toNat * 256 + s.drop.toNat * 8 + s.err.toNat * 4 + s.done.toNat * 2 +
      (if s.pend = 0 then 0 else 1))
  else if off = 0x00C then 0
  else if off = 0x010 then BitVec.ofNat 32 (s.msglen.toNat % 2 ^ 32)
  else if off = 0x014 then BitVec.ofNat 32 (s.msglen.toNat / 2 ^ 32)
  else if off = 0x018 then s.blksel
  else if off = 0x01C then s.padlen
  else if off = 0x020 then s.nblk
  else if off = 0x024 then s.msgptr
  else if off = 0x02C then s.padptr
  else if 0x040 ≤ off ∧ off < 0x054 then [s.h.x0, s.h.x1, s.h.x2, s.h.x3, s.h.x4].getD ((off - 0x040) / 4) 0
  else if 0x060 ≤ off ∧ off < 0x074 then [s.v.x0, s.v.x1, s.v.x2, s.v.x3, s.v.x4].getD ((off - 0x060) / 4) 0
  else if 0x100 ≤ off ∧ off < 0x140 then wordAt s.blk.toList (off - 0x100)
  else if 0x200 ≤ off ∧ off < 0x340 then s.w.toList.getD ((off - 0x200) / 4) 0
  else if 0x400 ≤ off ∧ off < 0x428 then wordAt s.dig.toList (off - 0x400)
  else 0

/-- RESULT_OFFSETS of R40. -/
def resultOffset (off : Nat) : Prop :=
  off = 0x01C ∨ off = 0x020 ∨ off = 0x028 ∨ off = 0x030 ∨ (0x040 ≤ off ∧ off < 0x054) ∨ (0x060 ≤ off ∧ off < 0x074) ∨
    (0x100 ≤ off ∧ off < 0x140) ∨ (0x200 ≤ off ∧ off < 0x340) ∨ (0x400 ≤ off ∧ off < 0x428)

/-- The reserved offsets of R36. -/
def reservedOffset (off : Nat) : Prop :=
  (0x034 ≤ off ∧ off < 0x040) ∨ (0x054 ≤ off ∧ off < 0x060) ∨ (0x074 ≤ off ∧ off < 0x100) ∨
    (0x140 ≤ off ∧ off < 0x200) ∨ (0x340 ≤ off ∧ off < 0x400) ∨ (0x428 ≤ off ∧ off < 0x1000)

/-- The offsets of the read-only registers and windows (R24, R36): ID, PADLEN, NBLK, PADDATA, H, A..E, BLKW, W and DIGW. -/
def readOnlyOffset (off : Nat) : Prop :=
  off = 0x000 ∨ off = 0x01C ∨ off = 0x020 ∨ off = 0x030 ∨ (0x040 ≤ off ∧ off < 0x054) ∨ (0x060 ≤ off ∧ off < 0x074) ∨
    (0x100 ≤ off ∧ off < 0x140) ∨ (0x200 ≤ off ∧ off < 0x340) ∨ (0x400 ≤ off ∧ off < 0x428)

/-- The register offset an address selects (R38): bits 11:2, times 4. -/
def off (a : Word) : Nat := a.toNat / 4 % 1024 * 4

/-- The Core's turn comes next, with `q` after it: the Host is silent, or the complete step is taken here. That it comes in
these two ways is the model's choice (log entry 2). -/
def CoreNext (s : State) (q : List Input) : Prop := (s.input = [] ∧ q = []) ∨ s.input = .complete :: q

end Sys2Proof.Spec

open Sys2Proof.Spec

/-! ### Encoding, and what a step runs -/

/-- A Host write of a legal word to CMD while BUSY = 0 runs the command the word decodes to (R56, R97). -/
def Obligations.StepRunsPresentedCommand : Prop :=
  ∀ (s : State) (a v : Word) (q : List Input) (i : Instr),
    s.input = .write a v :: q → off a = 0x00C → s.pend = 0 → decode v = .instr i →
    step s = exec i { s with input := q }

/-- At the Core's turn the command whose opcode PEND holds is run (R95). When that turn comes is the model's choice (log
entry 2, DESIGN CHOICE): at a queued `complete`, and whenever nothing is queued. So is that a turn taken with PEND = 0 is a
step that changes nothing: R95 gives no complete step there. -/
def Obligations.StepCompletesCommandInFlight : Prop :=
  ∀ (s : State) (q : List Input), CoreNext s q →
    (∀ i : Instr, s.pend = opcode i → step s = exec i { s with input := q }) ∧
    (s.pend = 0 → step s = .next { s with input := q })

/-- The seven words of R59, bit by bit, decode to their commands. -/
def Obligations.TableWordsDecode : Prop :=
  decode 0b00000000000000000000000000000001#32 = .instr .init ∧
  decode 0b00000000000000000000000000000010#32 = .instr .pad ∧
  decode 0b00000000000000000000000000000011#32 = .instr .split ∧
  decode 0b00000000000000000000000000000100#32 = .instr .sched ∧
  decode 0b00000000000000000000000000000101#32 = .instr .compress ∧
  decode 0b00000000000000000000000000000110#32 = .instr .format ∧
  decode 0b00000000000000000000000000000111#32 = .instr .hash

/-- R59: of all 2^32 words each command has exactly the one in its row of the table; it is the word the encoder gives, and
every other word is illegal. -/
def Obligations.DecodeMatchesWholeWord : Prop :=
  (∀ (w : Word) (i : Instr), decode w = .instr i ↔ w = commandWord i) ∧
  (∀ i : Instr, i.wellFormed = true → encode i = commandWord i ∧ decode (encode i) = .instr i) ∧
  (∀ w : Word, (∃ r, decode w = .illegal r) ↔ ∀ i, w ≠ commandWord i)

/-- R60: a word is illegal exactly when OP is 0x0 or 0x8 to 0xF or RSV ≠ 0, that is when it is not one of 1 to 7; written
to CMD and not dropped it is rejected with code 1 and has no other effect. -/
def Obligations.IllegalWordRejected : Prop :=
  (∀ v : Word, (∃ r, decode v = .illegal r) ↔
    ((v.toNat % 16 = 0 ∨ 8 ≤ v.toNat % 16) ∨ v.toNat / 16 ≠ 0)) ∧
  (∀ v : Word, (∃ i, decode v = .instr i) ↔ 1 ≤ v.toNat ∧ v.toNat ≤ 7) ∧
  (∀ (s : State) (a v : Word) (q : List Input),
    s.input = .write a v :: q → off a = 0x00C → s.pend = 0 → s.err = false → (∃ r, decode v = .illegal r) →
    step s = .next { s with input := q, done := false, err := true, errcode := 1 })

/-! ### Acceptance, rejection and the return from an error -/

/-- R97 and R105: exactly one outcome of a CMD write, the first that applies in R105's order, for every word. -/
def Obligations.CommandWriteTakesFirstOutcome : Prop :=
  ∀ (s : State) (a v : Word) (q : List Input), s.input = .write a v :: q → off a = 0x00C →
    step s = .next (cmdWrite v { s with input := q })

/-- R106: a CMD write that sets ERR changes only DONE (to 0), ERR (to 1) and ERRCODE, and the Host sees it as `irq` where
CTRL.IE = 1. -/
def Obligations.RejectionChangesOnlyStatus : Prop :=
  ∀ (s t : State) (a v : Word) (q : List Input), s.input = .write a v :: q → off a = 0x00C →
    s.err = false → step s = .next t → t.err = true →
    t = { s with input := q, done := false, err := true, errcode := t.errcode } ∧
    1 ≤ t.errcode.toNat ∧ t.errcode.toNat ≤ 4 ∧ irq t = t.ie

/-- R107: while ERR = 1 and BUSY = 0 every CMD write is dropped, DROP ← 1, and ERR, ERRCODE and DONE keep their values. A
write to another register does what it would do with ERR = 0 (STATUS, whose write clears ERR, has its own statement). -/
def Obligations.ErrorHoldsBackCommands : Prop :=
  ∀ (s : State) (a v : Word) (q : List Input), s.input = .write a v :: q → s.pend = 0 → s.err = true →
    (off a = 0x00C → step s = .next { s with input := q, drop := true }) ∧
    (off a ≠ 0x00C → off a ≠ 0x008 →
      ∃ t, step { s with err := false } = .next t ∧ step s = .next { t with err := true })

/-- R108: a write of STATUS with bit 2 = 1 clears ERR and ERRCODE in one step and restores nothing else (DONE and DROP
change only where the same write clears them); after it a CMD write is accepted or rejected again, not dropped. Reset clears
ERR too. -/
def Obligations.StatusWriteReturnsFromError : Prop :=
  (∀ (s : State) (q : List Input), s.input = .reset :: q → ∃ u, step s = .next u ∧ u.err = false) ∧
  ∀ (s : State) (a v : Word) (q : List Input), s.input = .write a v :: q → off a = 0x008 → v.getLsbD 2 = true →
    ∃ t, step s = .next t ∧
      t = { s with input := q, err := false, errcode := 0, done := s.done && !v.getLsbD 1,
                   drop := s.drop && !v.getLsbD 3 } ∧
      (∀ (a' v' : Word) (q' : List Input), q = .write a' v' :: q' → off a' = 0x00C → s.pend = 0 →
        ∃ u, step t = .next u ∧ u.drop = t.drop ∧ (u.pend ≠ 0 ∨ u.err = true))

/-! ### The commands: acceptance and completion, with their frames -/

/-- R90: INIT is accepted by an idle block, and completing sets H to IV; nothing else but PEND and DONE changes. -/
def Obligations.InitSetsHashState : Prop :=
  encode .init = 0x00000001 ∧
  (∀ s : State, s.pend = 0 → s.err = false → exec .init s = .next { s with done := false, pend := 1 }) ∧
  (∀ s : State, s.pend = 1 →
    exec .init s = .next
      { s with h := ⟨0x67452301, 0xEFCDAB89, 0x98BADCFE, 0x10325476, 0xC3D2E1F0⟩, pend := 0, done := true })

/-- R68: PAD's checks, in order; and its completion: PAD[0 .. N), PADLEN and NBLK are written, every PAD byte from N on
and every other register and buffer is unchanged. A message byte written since reset is copied; one never written is a
free value. With the whole message written no value is drawn. -/
def Obligations.PadWritesPaddedMessage : Prop :=
  encode .pad = 0x00000002 ∧
  (∀ s : State, s.pend = 0 → s.err = false →
    exec .pad s = .next
      (if 2 ^ 61 ≤ s.msglen.toNat then { s with done := false, err := true, errcode := 2 }
       else if s.msgCap < s.msglen.toNat then { s with done := false, err := true, errcode := 3 }
       else { s with done := false, pend := 2 })) ∧
  (∀ s : State, s.pend = 2 → Config.MsgCapLegal s.msgCap → s.msglen.toNat ≤ s.msgCap →
    ∃ t, exec .pad s = .next t ∧
      t = { s with pad := t.pad, padlen := t.padlen, nblk := t.nblk, draws := t.draws, pend := 0, done := true } ∧
      t.padlen.toNat = padlen s.msglen.toNat ∧ t.nblk.toNat = padlen s.msglen.toNat / 64 ∧
      (∀ i, padlen s.msglen.toNat ≤ i → memGet t.pad i = memGet s.pad i) ∧
      (∀ i b, i < s.msglen.toNat → memGet s.msg i = some b → memGet t.pad i = some b) ∧
      (∀ m, MessageIs s m →
        (∀ i, i < padlen s.msglen.toNat → memGet t.pad i = (padLoop m)[i]?) ∧ t.draws = s.draws))

/-- The tail PAD writes after the message does not depend on whether the message bytes were written: 0x80, then zeros,
then the bit length, big-endian (R66, R68). That every byte of the length field is as R66's formula gives it, against R66's
closing remark that bytes N-8 to N-4 are always 0x00, is the model's reading (log entry 8, DEDUCED). -/
def Obligations.PadTailIsFixed : Prop :=
  ∀ s t : State, s.pend = 2 → exec .pad s = .next t →
    memGet t.pad s.msglen.toNat = some 0x80 ∧
    (∀ i, s.msglen.toNat < i → i < padlen s.msglen.toNat - 8 → memGet t.pad i = some 0x00) ∧
    (∀ j, j < 8 → memGet t.pad (padlen s.msglen.toNat - 8 + j) =
      some (BitVec.ofNat 8 (8 * s.msglen.toNat % 2 ^ 64 / 2 ^ (8 * (7 - j)))))

/-- R72: SPLIT's check, and its completion: BLK gets the 64 bytes of block BLKSEL of PAD, nothing else changes. -/
def Obligations.SplitCopiesSelectedBlock : Prop :=
  encode .split = 0x00000003 ∧
  (∀ s : State, s.pend = 0 → s.err = false →
    exec .split s = .next
      (if s.nblk.toNat ≤ s.blksel.toNat then { s with done := false, err := true, errcode := 4 }
       else { s with done := false, pend := 3 })) ∧
  (∀ s : State, s.pend = 3 →
    ∃ t, exec .split s = .next t ∧
      t = { s with blk := t.blk, draws := t.draws, pend := 0, done := true } ∧
      (∀ (k : Fin 64) (b : Byte), memGet s.pad (64 * s.blksel.toNat + k.val) = some b → t.blk[k] = b) ∧
      ((∀ k, k < 64 → (memGet s.pad (64 * s.blksel.toNat + k)).isSome) → t.draws = s.draws))

/-- R76, R73, R74: SCHED is accepted by an idle block; completing it writes all of W, the first 16 words from BLK and each
later one from the words before it; nothing else but PEND and DONE changes. -/
def Obligations.SchedExpandsBlock : Prop :=
  encode .sched = 0x00000004 ∧
  (∀ s : State, s.pend = 0 → s.err = false → exec .sched s = .next { s with done := false, pend := 4 }) ∧
  (∀ s : State, s.pend = 4 →
    ∃ w : Vector Word 80, exec .sched s = .next { s with w := w, pend := 0, done := true } ∧
      (∀ i (_ : i < 16), w[i] = s.blk[4 * i] ++ s.blk[4 * i + 1] ++ s.blk[4 * i + 2] ++ s.blk[4 * i + 3]) ∧
      (∀ i (_ : 16 ≤ i) (_ : i < 80), w[i] = (w[i - 3] ^^^ w[i - 8] ^^^ w[i - 14] ^^^ w[i - 16]).rotateLeft 1))

/-- R83, R81, R82: COMPRESS is accepted by an idle block; completing it folds W into H and leaves the working variables
after round 79 in A..E; nothing else but PEND and DONE changes. -/
def Obligations.CompressFoldsSchedule : Prop :=
  encode .compress = 0x00000005 ∧
  (∀ s : State, s.pend = 0 → s.err = false → exec .compress s = .next { s with done := false, pend := 5 }) ∧
  (∀ s : State, s.pend = 5 →
    exec .compress s = .next
      { s with h := (compressList s.h s.w.toList).1, v := (compressList s.h s.w.toList).2, pend := 0, done := true })

/-- R89, R88: FORMAT is accepted by an idle block; completing it renders H in DIG, character by character; nothing else
but PEND and DONE changes. -/
def Obligations.FormatRendersDigest : Prop :=
  encode .format = 0x00000006 ∧
  (∀ s : State, s.pend = 0 → s.err = false → exec .format s = .next { s with done := false, pend := 6 }) ∧
  (∀ s : State, s.pend = 6 →
    ∃ d : Vector Byte 40, exec .format s = .next { s with dig := d, pend := 0, done := true } ∧
      ∀ p (_ : p < 40), d[p] = digestChar s.h p)

/-- R91: HASH's checks are PAD's; its completion always answers a next state, whose frame is: MSG, MSGLEN, BLKSEL, MSGPTR,
PADPTR, CTRL, ERR, ERRCODE and DROP as before, PAD as before from N on. -/
def Obligations.HashAcceptsAndCompletes : Prop :=
  encode .hash = 0x00000007 ∧
  (∀ s : State, s.pend = 0 → s.err = false →
    exec .hash s = .next
      (if 2 ^ 61 ≤ s.msglen.toNat then { s with done := false, err := true, errcode := 2 }
       else if s.msgCap < s.msglen.toNat then { s with done := false, err := true, errcode := 3 }
       else { s with done := false, pend := 7 })) ∧
  (∀ s : State, s.pend = 7 →
    ∃ t, exec .hash s = .next t ∧
      t = { s with h := t.h, v := t.v, w := t.w, blk := t.blk, dig := t.dig, pad := t.pad, padlen := t.padlen,
                   nblk := t.nblk, draws := t.draws, pend := 0, done := true } ∧
      (∀ i, padlen s.msglen.toNat ≤ i → memGet t.pad i = memGet s.pad i) ∧
      (∀ p (_ : p < 40), t.dig[p] = digestChar t.h p))

/-- R91, the headline: on a message written since reset HASH leaves its SHA-1 state in H and the digest in DIG, with PAD,
PADLEN, NBLK, BLK, W and A..E as after the last block. -/
def Obligations.HashComputesSha1 : Prop :=
  ∀ (s : State) (m : List Byte), s.pend = 7 → Config.MsgCapLegal s.msgCap → s.msglen.toNat ≤ s.msgCap →
    MessageIs s m →
    ∃ t, exec .hash s = .next t ∧
      t.h = sha1 m ∧
      (∀ p (_ : p < 40), t.dig[p] = digestChar (sha1 m) p) ∧
      t.padlen.toNat = padlen m.length ∧ t.nblk.toNat = padlen m.length / 64 ∧
      (∀ i, i < padlen m.length → memGet t.pad i = (padLoop m)[i]?) ∧
      t.blk.toList = block (padLoop m) (padlen m.length / 64 - 1) ∧
      t.w.toList = scheduleList (block (padLoop m) (padlen m.length / 64 - 1)) ∧
      t.v = (compressList (chain (padLoop m) (padlen m.length / 64 - 1)) t.w.toList).2 ∧
      t.draws = s.draws

/-- R92: HASH leaves what the stage path leaves (INIT; PAD; SPLIT, SCHED and COMPRESS for every block in ascending order;
FORMAT), but for BLKSEL, which HASH keeps. The message has been written since reset: of an unwritten byte the two runs may
read different values (R121, log entry 4). -/
def Obligations.HashEqualsStagePath : Prop :=
  ∀ s : State, s.pend = 0 → s.err = false → Config.MsgCapLegal s.msgCap → s.msglen.toNat ≤ s.msgCap → MessageWritten s →
    ∃ t, stagePath s = .next t ∧ runCommandWhole .hash s = .next { t with blksel := s.blksel }

/-- R94: the results of HASH depend only on MSGLEN and on `MSG[0 .. n)`, where that has been written since reset. -/
def Obligations.HashDependsOnlyOnMessage : Prop :=
  ∀ (s s' t t' : State) (m : List Byte), s.pend = 7 → s'.pend = 7 → s.msglen = s'.msglen →
    MessageIs s m → MessageIs s' m → exec .hash s = .next t → exec .hash s' = .next t' →
    t.h = t'.h ∧ t.v = t'.v ∧ t.w = t'.w ∧ t.blk = t'.blk ∧ t.dig = t'.dig ∧ t.padlen = t'.padlen ∧ t.nblk = t'.nblk ∧
      ∀ i, i < padlen s.msglen.toNat → memGet t.pad i = memGet t'.pad i

/-! ### The units as functions -/

/-- R64 and R65: the closed form the machine uses is the loop of R64; N is R65's padlen; z(n) is the least count that brings
the length to 56 modulo 64. -/
def Obligations.PadderLoopAgreesWithClosedForm : Prop :=
  (∀ m : List Byte, padMessage m = padLoop m ∧ (padMessage m).length = padlen m.length) ∧
  (∀ n : Nat, padlen n = 64 * ((n + 8) / 64) + 64 ∧ (zeroCount n : Int) = (55 - (n : Int)) % 64 ∧ zeroCount n ≤ 63 ∧
    padlen n = n + 9 + zeroCount n ∧ (n + 1 + zeroCount n) % 64 = 56 ∧
    ∀ z, (n + 1 + z) % 64 = 56 → zeroCount n ≤ z)

/-- The padded message byte by byte, as R66's four lines give it (its closing remark on zero bytes is left out: log entry
8). -/
def Obligations.PaddedMessageByteByByte : Prop :=
  ∀ m : List Byte,
    (∀ i, i < m.length → (padMessage m)[i]? = m[i]?) ∧
    (padMessage m)[m.length]? = some 0x80 ∧
    (∀ i, m.length < i → i < padlen m.length - 8 → (padMessage m)[i]? = some 0x00) ∧
    (∀ j, j < 8 → (padMessage m)[padlen m.length - 8 + j]? =
      some (BitVec.ofNat 8 (8 * m.length % 2 ^ 64 / 2 ^ (8 * (7 - j)) % 256)))

/-- R67: (a) whole blocks, (b) at least n + 9 bytes, (c) the length field is 8n, (d) at most n + 72 bytes, (e) 55 bytes
make one block and 56 make two. -/
def Obligations.PaddingProperties : Prop :=
  (∀ n : Nat, padlen n % 64 = 0 ∧ n + 9 ≤ padlen n ∧ padlen n ≤ n + 72) ∧
  padlen 55 = 64 ∧ padlen 56 = 128 ∧
  (∀ m : List Byte, m.length < 2 ^ 61 →
    ((padMessage m).drop (padlen m.length - 8)).foldl (fun x b => x * 256 + b.toNat) 0 = 8 * m.length)

/-- R71: the blocks SPLIT delivers for BLKSEL = 0, 1, …, NBLK - 1, one after the other, are `PAD[0 .. PADLEN)`. -/
def Obligations.BlocksCoverPaddedMessage : Prop :=
  ∀ (s : State) (p : List Byte), s.nblk.toNat * 64 = s.padlen.toNat → p.length = s.padlen.toNat →
    (∀ i, i < p.length → memGet s.pad i = p[i]?) →
    ∀ b : Nat → State,
      (∀ j, j < s.nblk.toNat → exec .split { s with blksel := BitVec.ofNat 32 j, pend := 3 } = .next (b j)) →
      (List.range s.nblk.toNat).flatMap (fun j => (b j).blk.toList) = p

/-- R75: the schedule reads only the 64 bytes of the block: what W held before does not show, and the reference schedule
of the same bytes is equal. -/
def Obligations.ScheduleReadsOnlyBlock : Prop :=
  ∀ (blk : Vector Byte 64) (w w' : Vector Word 80),
    schedule blk w = schedule blk w' ∧ (schedule blk w).toList = scheduleList blk.toList

/-- R77, R78: in each band f_t is the function of R78's table, acts bit by bit, and has the equal forms R78 gives. -/
def Obligations.MixingFunctionsActBitwise : Prop :=
  ∀ (t : Nat) (x y z : Word), t < 80 →
    mix t x y z = mixing t x y z ∧
    ∀ k, k < 32 → (mix t x y z).getLsbD k =
      if t ≤ 19 then (if x.getLsbD k then y.getLsbD k else z.getLsbD k)
      else if 40 ≤ t ∧ t ≤ 59 then
        (x.getLsbD k && y.getLsbD k) || (x.getLsbD k && z.getLsbD k) || (y.getLsbD k && z.getLsbD k)
      else xor (xor (x.getLsbD k) (y.getLsbD k)) (z.getLsbD k)

/-- R79: the round constant of each round. -/
def Obligations.RoundConstantsByBand : Prop :=
  ∀ t : Nat, t < 80 → band t = t / 20 ∧ roundK t = roundConst t

/-- R80: one round; every new value comes from the values before the round. -/
def Obligations.RoundShiftsTheChain : Prop :=
  ∀ (t : Nat) (wt a b c d e : Word), t < 80 →
    compressRound t wt ⟨a, b, c, d, e⟩ =
      ⟨a.rotateLeft 5 + mixing t b c d + e + roundConst t + wt, a, b.rotateLeft 30, c, d⟩

/-- R10: add32 is the sum modulo 2^32, and ROTL32 the rotation of a 32-bit word, for every n it is defined for. -/
def Obligations.ArithmeticPrimitives : Prop :=
  (∀ a b c d e : Word, (a + b + c + d + e).toNat = (a.toNat + b.toNat + c.toNat + d.toNat + e.toNat) % 2 ^ 32) ∧
  ∀ (x : Word) (n : Nat), 1 ≤ n → n ≤ 31 →
    rotl32 x n = x.rotateLeft n ∧
    (rotl32 x n).toNat = (x.toNat * 2 ^ n ||| x.toNat / 2 ^ (32 - n)) % 2 ^ 32

/-- R86 to R88: the digest is 40 characters, each the digit of its nibble, and none but 0-9 and a-f. -/
def Obligations.DigestIsLowercaseHex : Prop :=
  ∀ h : Five, (digest h).length = 40 ∧
    ∀ p, p < 40 → (digest h)[p]? = some (digestChar h p) ∧ digestChar h p ∈ hexDigits

/-- R42: a bus word and its four bytes determine each other, the byte at the lowest index in bits 31:24. -/
def Obligations.BusWordsAreBigEndian : Prop :=
  (∀ v : Word, be32List (wordBytes v) 0 = v) ∧
  (∀ b0 b1 b2 b3 : Byte, be32 b0 b1 b2 b3 = b0 ++ b1 ++ b2 ++ b3 ∧ wordBytes (be32 b0 b1 b2 b3) = [b0, b1, b2, b3])

/-! ### The register window -/

/-- R48: while BUSY = 1 a write to any offset but CTRL and STATUS changes nothing except DROP ← 1, and writes to CTRL and
STATUS take effect as usual. -/
def Obligations.BusyWritesAreDropped : Prop :=
  ∀ (s : State) (a v : Word) (q : List Input), s.input = .write a v :: q → s.pend ≠ 0 →
    (off a ≠ 0x004 → off a ≠ 0x008 → step s = .next { s with input := q, drop := true }) ∧
    (off a = 0x004 → step s = .next { s with input := q, ie := v.getLsbD 0 }) ∧
    (off a = 0x008 → step s = .next
      { s with input := q, done := s.done && !v.getLsbD 1, err := s.err && !v.getLsbD 2,
               drop := s.drop && !v.getLsbD 3, errcode := if v.getLsbD 2 then 0 else s.errcode })

/-- R49: while BUSY = 1 a read of a result register, window or data port returns a fresh draw and has no side effect; every
other read stays exact. -/
def Obligations.BusyReadsOfResultsAreDraws : Prop :=
  ∀ (s : State) (a : Word) (q : List Input), s.input = .read a :: q → s.pend ≠ 0 →
    (resultOffset (off a) → step s = .next
      { s with input := q, readData := some (Config.freeWord s.draws), draws := s.draws + 1 }) ∧
    (¬ resultOffset (off a) → step s = .next { s with input := q, readData := some (readValue s (off a)) })

/-- R40 with BUSY = 0: what every offset but the two data ports reads as; the read changes nothing. -/
def Obligations.IdleReadsReturnRegisters : Prop :=
  ∀ (s : State) (a : Word) (q : List Input), s.input = .read a :: q → s.pend = 0 → off a ≠ 0x028 → off a ≠ 0x030 →
    step s = .next { s with input := q, readData := some (readValue s (off a)) }

/-- R39 with BUSY = 0: what a write does at every offset but CMD and MSGDATA. -/
def Obligations.IdleWritesSetRegisters : Prop :=
  ∀ (s : State) (a v : Word) (q : List Input), s.input = .write a v :: q → s.pend = 0 → off a ≠ 0x00C → off a ≠ 0x028 →
    ∃ t, step s = .next t ∧
      t = (if off a = 0x004 then { s with input := q, ie := v.getLsbD 0 }
        else if off a = 0x008 then
          { s with input := q, done := s.done && !v.getLsbD 1, err := s.err && !v.getLsbD 2,
                   drop := s.drop && !v.getLsbD 3, errcode := if v.getLsbD 2 then 0 else s.errcode }
        else if off a = 0x010 then
          { s with input := q, msglen := BitVec.ofNat 64 (s.msglen.toNat / 2 ^ 32 * 2 ^ 32 + v.toNat) }
        else if off a = 0x014 then
          { s with input := q, msglen := BitVec.ofNat 64 (v.toNat * 2 ^ 32 + s.msglen.toNat % 2 ^ 32) }
        else if off a = 0x018 then { s with input := q, blksel := v }
        else if off a = 0x024 then { s with input := q, msgptr := BitVec.ofNat 32 (v.toNat / 4 * 4) }
        else if off a = 0x02C then { s with input := q, padptr := BitVec.ofNat 32 (v.toNat / 4 * 4) }
        else { s with input := q })

/-- R45: the MSGDATA port. With BUSY = 0 a write in range stores the word's four bytes, big-endian, at MSGPTR and nowhere
else; one out of range sets DROP and leaves MSG; both advance MSGPTR. A read in range returns the word of the four bytes,
each as written (a byte never written is unspecified); one out of range returns 0; both advance MSGPTR. With BUSY = 1 the
write is dropped and neither access moves MSGPTR. -/
def Obligations.MsgDataPort : Prop :=
  (∀ (s : State) (a v : Word) (q : List Input), s.input = .write a v :: q → s.pend = 0 → off a = 0x028 →
    ∃ t, step s = .next t ∧ t.msgptr.toNat = (s.msgptr.toNat + 4) % 2 ^ 32 ∧
      (s.msgptr.toNat + 4 ≤ s.msgCap →
        t = { s with input := q, msg := t.msg, msgptr := t.msgptr } ∧
        (∀ j, j < 4 → memGet t.msg (s.msgptr.toNat + j) = some (BitVec.ofNat 8 (v.toNat / 2 ^ (8 * (3 - j)) % 256))) ∧
        (∀ i, (i < s.msgptr.toNat ∨ s.msgptr.toNat + 4 ≤ i) → memGet t.msg i = memGet s.msg i)) ∧
      (s.msgCap < s.msgptr.toNat + 4 → t = { s with input := q, drop := true, msgptr := t.msgptr })) ∧
  (∀ (s : State) (a : Word) (q : List Input), s.input = .read a :: q → s.pend = 0 → off a = 0x028 →
    ∃ t, step s = .next t ∧ t.msgptr.toNat = (s.msgptr.toNat + 4) % 2 ^ 32 ∧
      t = { s with input := q, readData := t.readData, draws := t.draws, msgptr := t.msgptr } ∧
      (s.msgCap < s.msgptr.toNat + 4 → t.readData = some 0) ∧
      (s.msgptr.toNat + 4 ≤ s.msgCap → ∃ c : Fin 4 → Byte, t.readData = some (c 0 ++ c 1 ++ c 2 ++ c 3) ∧
        ∀ (j : Fin 4) (b : Byte), memGet s.msg (s.msgptr.toNat + j.val) = some b → c j = b)) ∧
  (∀ (s : State) (a v : Word) (q : List Input), s.input = .write a v :: q → s.pend ≠ 0 → off a = 0x028 →
    step s = .next { s with input := q, drop := true }) ∧
  (∀ (s : State) (a : Word) (q : List Input), s.input = .read a :: q → s.pend ≠ 0 → off a = 0x028 →
    ∃ t, step s = .next t ∧ t.msgptr = s.msgptr ∧ t.msg = s.msg)

/-- R121 at the port: a byte of the word that was never written is a fresh draw, the written ones are exact. Here the first
byte is the unwritten one. -/
def Obligations.UnwrittenMessageByteIsDrawn : Prop :=
  ∀ (s : State) (a : Word) (q : List Input) (b1 b2 b3 : Byte), s.input = .read a :: q → s.pend = 0 → off a = 0x028 →
    s.msgptr.toNat + 4 ≤ s.msgCap → memGet s.msg s.msgptr.toNat = none →
    memGet s.msg (s.msgptr.toNat + 1) = some b1 → memGet s.msg (s.msgptr.toNat + 2) = some b2 →
    memGet s.msg (s.msgptr.toNat + 3) = some b3 →
    step s = .next
      { s with input := q, msgptr := s.msgptr + 4, draws := s.draws + 1,
               readData := some (Config.freeByte s.draws ++ b1 ++ b2 ++ b3) }

/-- R46: a read of PADDATA with BUSY = 0 returns four bytes of the padded message below PADLEN and 0 from there on, and
advances PADPTR; it never straddles PADLEN; a write of PADDATA is ignored; with BUSY = 1 PADPTR does not move. -/
def Obligations.PadDataPort : Prop :=
  (∀ (s : State) (a : Word) (q : List Input), s.input = .read a :: q → s.pend = 0 → off a = 0x030 →
    ∃ t, step s = .next t ∧ t.padptr.toNat = (s.padptr.toNat + 4) % 2 ^ 32 ∧
      t = { s with input := q, readData := t.readData, draws := t.draws, padptr := t.padptr } ∧
      (s.padlen.toNat < s.padptr.toNat + 4 → t.readData = some 0) ∧
      (s.padptr.toNat + 4 ≤ s.padlen.toNat → ∃ c : Fin 4 → Byte, t.readData = some (c 0 ++ c 1 ++ c 2 ++ c 3) ∧
        ∀ (j : Fin 4) (b : Byte), memGet s.pad (s.padptr.toNat + j.val) = some b → c j = b)) ∧
  (∀ s : State, Invariant s → s.padptr.toNat < s.padlen.toNat → s.padptr.toNat + 4 ≤ s.padlen.toNat) ∧
  (∀ (s : State) (a v : Word) (q : List Input), s.input = .write a v :: q → s.pend = 0 → off a = 0x030 →
    step s = .next { s with input := q }) ∧
  (∀ (s : State) (a : Word) (q : List Input), s.input = .read a :: q → s.pend ≠ 0 → off a = 0x030 →
    ∃ t, step s = .next t ∧ t.padptr = s.padptr)

/-- A word written through MSGDATA is the word read back through it after MSGPTR is set again (R45, R33): three steps. -/
def Obligations.MsgDataReadsBackWrite : Prop :=
  ∀ (s : State) (a a' a'' v p : Word) (q : List Input),
    s.input = .write a v :: .write a' p :: .read a'' :: q → off a = 0x028 → off a' = 0x024 → off a'' = 0x028 →
    s.pend = 0 → s.msgptr.toNat % 4 = 0 → p.toNat / 4 = s.msgptr.toNat / 4 → s.msgptr.toNat + 4 ≤ s.msgCap →
    ∃ t, Host.Core.run core 3 s = .next t ∧ t.readData = some v

/-- R36: every reserved offset reads 0 whether or not a command runs; a write to one, to a read-only register or to a window
is ignored while BUSY = 0 and sets nothing, not even DROP, and while BUSY = 1 sets DROP and nothing else (R48). -/
def Obligations.ReservedAndReadOnlyOffsets : Prop :=
  (∀ (s : State) (a : Word) (q : List Input), s.input = .read a :: q → reservedOffset (off a) →
    step s = .next { s with input := q, readData := some 0 }) ∧
  (∀ (s : State) (a v : Word) (q : List Input), s.input = .write a v :: q → s.pend = 0 →
    reservedOffset (off a) ∨ readOnlyOffset (off a) →
    step s = .next { s with input := q }) ∧
  (∀ (s : State) (a v : Word) (q : List Input), s.input = .write a v :: q → s.pend ≠ 0 →
    reservedOffset (off a) ∨ readOnlyOffset (off a) →
    step s = .next { s with input := q, drop := true })

/-- R24: the map is complete and without overlap: each register has one offset, and an aligned offset of the window names a
register exactly when it is not reserved. -/
def Obligations.RegisterMapIsComplete : Prop :=
  (∀ r : Reg, regAt (regOffset r) = some r ∧ regOffset r % 4 = 0 ∧ regOffset r < 0x1000) ∧
  (∀ n, n % 4 = 0 → n < 0x1000 → (regAt n = none ↔ reservedOffset n)) ∧
  (∀ (n : Nat) (r : Reg), n % 4 = 0 → regAt n = some r → regOffset r = n)

/-- R38, R44: a Host access sees only address bits 11:2; two addresses that agree there are the same access. (Where the access
returns an unspecified value, it is in both cases the draw at this one state: log entry 4.) -/
def Obligations.AddressBitsOutsideWindowIgnored : Prop :=
  ∀ (s : State) (a a' v : Word) (q : List Input), a.extractLsb' 2 10 = a'.extractLsb' 2 10 →
    step { s with input := .read a :: q } = step { s with input := .read a' :: q } ∧
    step { s with input := .write a v :: q } = step { s with input := .write a' v :: q }

/-- R47 for reads: a Host read changes nothing but what it returns, the count of draws, and the pointer of the data port it
reads; a port moves its pointer only while BUSY = 0. -/
def Obligations.ReadSideEffects : Prop :=
  ∀ (s : State) (a : Word) (q : List Input), s.input = .read a :: q →
    ∃ t, step s = .next t ∧
      t = { s with input := q, readData := t.readData, draws := t.draws, msgptr := t.msgptr, padptr := t.padptr } ∧
      (t.msgptr ≠ s.msgptr ↔ (off a = 0x028 ∧ s.pend = 0)) ∧ (t.padptr ≠ s.padptr ↔ (off a = 0x030 ∧ s.pend = 0))

/-- R27: the layout of STATUS as the Host reads it, bit by bit. -/
def Obligations.StatusLayout : Prop :=
  ∀ s : State,
    (statusWord s).getLsbD 0 = (s.pend != 0) ∧ (statusWord s).getLsbD 1 = s.done ∧ (statusWord s).getLsbD 2 = s.err ∧
    (statusWord s).getLsbD 3 = s.drop ∧ (statusWord s).extractLsb' 8 4 = s.errcode ∧
    ∀ k, (4 ≤ k ∧ k ≤ 7) ∨ 12 ≤ k → (statusWord s).getLsbD k = false

/-- R29: each half of MSGLEN is written alone and reads back exactly the value written. -/
def Obligations.MsglenHalvesIndependent : Prop :=
  ∀ (s : State) (a v : Word) (q : List Input), s.input = .write a v :: q → s.pend = 0 →
    (off a = 0x010 → ∃ t, step s = .next t ∧ regValue t .msglenLo = v ∧ regValue t .msglenHi = regValue s .msglenHi) ∧
    (off a = 0x014 → ∃ t, step s = .next t ∧ regValue t .msglenHi = v ∧ regValue t .msglenLo = regValue s .msglenLo)

/-- R110: the level of `irq`, and the three ways it falls: DONE and ERR cleared, IE cleared, a command accepted. -/
def Obligations.IrqLevel : Prop :=
  (∀ s : State, irq s = true ↔ s.ie = true ∧ (s.done = true ∨ s.err = true)) ∧
  irq State.reset = false ∧
  (∀ (s t : State) (a v : Word) (q : List Input), s.input = .write a v :: q → step s = .next t →
    (off a = 0x008 → v.getLsbD 1 = true → v.getLsbD 2 = true → irq t = false) ∧
    (off a = 0x004 → v.getLsbD 0 = false → irq t = false) ∧
    (off a = 0x00C → s.pend = 0 → t.pend ≠ 0 → irq t = false))

/-! ### The whole machine -/

/-- R120, R23: every state element after reset. The bytes of MSG and PAD are unspecified: none is listed as written. -/
def Obligations.ResetState : Prop :=
  State.reset.h = initialState ∧ State.reset.v = ⟨0, 0, 0, 0, 0⟩ ∧
  (∀ i : Fin 80, State.reset.w[i] = 0) ∧ (∀ i : Fin 64, State.reset.blk[i] = 0) ∧ (∀ i : Fin 40, State.reset.dig[i] = 0) ∧
  (∀ i, memGet State.reset.msg i = none) ∧ (∀ i, memGet State.reset.pad i = none) ∧
  State.reset.msglen = 0 ∧ State.reset.blksel = 0 ∧ State.reset.padlen = 0 ∧ State.reset.nblk = 0 ∧
  State.reset.msgptr = 0 ∧ State.reset.padptr = 0 ∧ State.reset.ie = false ∧
  State.reset.pend = 0 ∧ State.reset.done = false ∧ State.reset.err = false ∧ State.reset.drop = false ∧
  State.reset.errcode = 0 ∧ irq State.reset = false ∧ (∀ s : State, regValue s .id = 0x53484131)

/-- R119, R122: the reset input is one step, at any time, that puts every state element at its reset value and abandons the
command in flight: no result of it is written. Of the model's own fields it says nothing of `readData` and `draws`. -/
def Obligations.ResetAbandonsCommand : Prop :=
  ∀ (s : State) (q : List Input), s.input = .reset :: q →
    ∃ t, step s = .next t ∧ t =
      { h := initialState, v := ⟨0, 0, 0, 0, 0⟩, w := Vector.replicate 80 0, blk := Vector.replicate 64 0,
        dig := Vector.replicate 40 0, msg := [], pad := [], msglen := 0, blksel := 0, padlen := 0, nblk := 0,
        msgptr := 0, padptr := 0, ie := false, done := false, err := false, drop := false, errcode := 0, pend := 0,
        msgCap := s.msgCap, input := q, readData := t.readData, draws := t.draws }

/-- The invariant holds right after reset. -/
def Obligations.InvariantHoldsAtReset : Prop := Invariant State.reset

/-- From every state that meets the invariant, not only those a run reaches, a step gives a state that meets it. -/
def Obligations.StepKeepsInvariant : Prop := ∀ s t : State, Invariant s → step s = .next t → Invariant t

/-- Where the invariant holds, a step always answers a next state: the machine never faults and refuses nothing. -/
def Obligations.StepNeverStops : Prop := ∀ s : State, Invariant s → ∃ t, step s = .next t

/-- R104, R95: an accepted command always completes with DONE = 1 and ERR = 0, and PEND ← 0 in the same step. -/
def Obligations.AcceptedCommandCompletes : Prop :=
  ∀ (s : State) (q : List Input), Invariant s → s.pend ≠ 0 → CoreNext s q →
    ∃ t, step s = .next t ∧ t.pend = 0 ∧ t.done = true ∧ t.err = false ∧ t.input = q

/-- R96: the complete step is eventually taken, however many Host accesses come before it: from any state with a command in
flight, at most one step more than what is queued leads to a state with BUSY = 0. That the queue is finite and that the
Core takes its turn after it is the model's form of R96's fairness (log entry 2, DESIGN CHOICE). -/
def Obligations.BusyIsEventuallyCleared : Prop :=
  ∀ s : State, Invariant s → s.pend ≠ 0 →
    ∃ k t, k ≤ s.input.length + 1 ∧ Host.Core.run core k s = .next t ∧ t.pend = 0

/-- The datapath registers, the buffers, PADLEN and NBLK are written only by what the spec names (R13 to R19, R31, R32): apart from the reset input,
MSG only by a write to MSGDATA; H only by INIT, COMPRESS and HASH completing; A..E by COMPRESS and HASH; W by SCHED and
HASH; BLK by SPLIT and HASH; DIG by FORMAT and HASH; PAD, PADLEN and NBLK by PAD and HASH. A step that writes a result sets
DONE and clears BUSY in the same step (R53). That MSG_CAP, a field of the model's State, is changed by no step is the
model's form of the parameter R7 (a) (log entry 6). The other registers have OnlyNamedWritersChangeControl. -/
def Obligations.OnlyNamedWritersChangeState : Prop :=
  ∀ s t : State, step s = .next t → (∀ q, s.input ≠ .reset :: q) →
    (t.msg ≠ s.msg → s.pend = 0 ∧ ∃ a v q, s.input = .write a v :: q ∧ off a = 0x028) ∧
    (t.h ≠ s.h → (∃ q, CoreNext s q) ∧ (s.pend = 1 ∨ s.pend = 5 ∨ s.pend = 7)) ∧
    (t.v ≠ s.v → (∃ q, CoreNext s q) ∧ (s.pend = 5 ∨ s.pend = 7)) ∧
    (t.w ≠ s.w → (∃ q, CoreNext s q) ∧ (s.pend = 4 ∨ s.pend = 7)) ∧
    (t.blk ≠ s.blk → (∃ q, CoreNext s q) ∧ (s.pend = 3 ∨ s.pend = 7)) ∧
    (t.dig ≠ s.dig → (∃ q, CoreNext s q) ∧ (s.pend = 6 ∨ s.pend = 7)) ∧
    (t.pad ≠ s.pad ∨ t.padlen ≠ s.padlen ∨ t.nblk ≠ s.nblk → (∃ q, CoreNext s q) ∧ (s.pend = 2 ∨ s.pend = 7)) ∧
    (t.h ≠ s.h ∨ t.v ≠ s.v ∨ t.w ≠ s.w ∨ t.blk ≠ s.blk ∨ t.dig ≠ s.dig ∨ t.pad ≠ s.pad ∨
        t.padlen ≠ s.padlen ∨ t.nblk ≠ s.nblk →
      t.pend = 0 ∧ t.done = true) ∧
    t.msgCap = s.msgCap

/-- The operands of the running command cannot change while it runs (R48, R95): until the Core's turn or the reset input,
a step with BUSY = 1 leaves PEND and every operand as they are. -/
def Obligations.OperandsFrozenWhileBusy : Prop :=
  ∀ s t : State, s.pend ≠ 0 → (∀ q, ¬ CoreNext s q) → (∀ q, s.input ≠ .reset :: q) → step s = .next t →
    t.pend = s.pend ∧ t.msg = s.msg ∧ t.msglen = s.msglen ∧ t.blksel = s.blksel ∧ t.pad = s.pad ∧ t.padlen = s.padlen ∧
    t.nblk = s.nblk ∧ t.blk = s.blk ∧ t.w = s.w ∧ t.h = s.h ∧ t.msgptr = s.msgptr ∧ t.padptr = s.padptr

/-- DROP is set only by a dropped write and cleared only by a STATUS write with bit 3 = 1 or reset (R27, R109). -/
def Obligations.DropRecordsDroppedWrites : Prop :=
  ∀ s t : State, step s = .next t →
    (s.drop = false → t.drop = true → ∃ a v q, s.input = .write a v :: q ∧
      ((s.pend ≠ 0 ∧ off a ≠ 0x004 ∧ off a ≠ 0x008) ∨ (off a = 0x00C ∧ s.err = true) ∨
       (off a = 0x028 ∧ s.msgCap < s.msgptr.toNat + 4))) ∧
    (s.drop = true → t.drop = false → (∃ q, s.input = .reset :: q) ∨
      ∃ a v q, s.input = .write a v :: q ∧ off a = 0x008 ∧ v.getLsbD 3 = true)

/-- R62: the address `SHA1_BASE + off(NAME)` selects the register NAME, whatever the base, and the written command word
decodes to its command. -/
def Obligations.HostAddressSelectsRegister : Prop :=
  (∀ r : Reg, off (hostAddress r) = regOffset r ∧ regAt (offsetOf (hostAddress r)) = some r) ∧
  (∀ (s : State) (q : List Input) (i : Instr), s.input = asmCommand i :: q → s.pend = 0 →
    step s = exec i { s with input := q })

/-- The index, length, control and status registers are written only by what the spec names, apart from the reset input
(R22, R26, R27, R29, R30, R33, R34): each half of MSGLEN by a write of its own offset; BLKSEL by a write of it; MSGPTR by a
write of it or an access to MSGDATA; PADPTR by a write of it or a read of PADDATA; all of these only while BUSY = 0; CTRL.IE
by a write to CTRL. DONE is set only by the Core's complete step, and cleared only by a STATUS write with bit 1 = 1 or a CMD
write that is not dropped. ERR is set only by a CMD write that is not dropped, and cleared only by a STATUS write with bit
2 = 1; ERRCODE moves only there. PEND leaves 0 only by a CMD write that is not dropped, and moves from another value only at
the complete step. DROP moves only at a Host write (DropRecordsDroppedWrites says which). -/
def Obligations.OnlyNamedWritersChangeControl : Prop :=
  ∀ s t : State, step s = .next t → (∀ q, s.input ≠ .reset :: q) →
    (t.msglen.toNat % 2 ^ 32 ≠ s.msglen.toNat % 2 ^ 32 → s.pend = 0 ∧ ∃ a v q, s.input = .write a v :: q ∧ off a = 0x010) ∧
    (t.msglen.toNat / 2 ^ 32 ≠ s.msglen.toNat / 2 ^ 32 → s.pend = 0 ∧ ∃ a v q, s.input = .write a v :: q ∧ off a = 0x014) ∧
    (t.blksel ≠ s.blksel → s.pend = 0 ∧ ∃ a v q, s.input = .write a v :: q ∧ off a = 0x018) ∧
    (t.msgptr ≠ s.msgptr → s.pend = 0 ∧
      ((∃ a v q, s.input = .write a v :: q ∧ (off a = 0x024 ∨ off a = 0x028)) ∨
        ∃ a q, s.input = .read a :: q ∧ off a = 0x028)) ∧
    (t.padptr ≠ s.padptr → s.pend = 0 ∧
      ((∃ a v q, s.input = .write a v :: q ∧ off a = 0x02C) ∨ ∃ a q, s.input = .read a :: q ∧ off a = 0x030)) ∧
    (t.ie ≠ s.ie → ∃ a v q, s.input = .write a v :: q ∧ off a = 0x004 ∧ t.ie = v.getLsbD 0) ∧
    (s.done = false → t.done = true → (∃ q, CoreNext s q) ∧ s.pend ≠ 0 ∧ t.pend = 0) ∧
    (s.done = true → t.done = false → ∃ a v q, s.input = .write a v :: q ∧
      ((off a = 0x008 ∧ v.getLsbD 1 = true) ∨ (off a = 0x00C ∧ s.pend = 0 ∧ s.err = false))) ∧
    (s.err = false → t.err = true → s.pend = 0 ∧ ∃ a v q, s.input = .write a v :: q ∧ off a = 0x00C) ∧
    (s.err = true → t.err = false → ∃ a v q, s.input = .write a v :: q ∧ off a = 0x008 ∧ v.getLsbD 2 = true) ∧
    (t.errcode ≠ s.errcode → ∃ a v q, s.input = .write a v :: q ∧
      ((off a = 0x008 ∧ v.getLsbD 2 = true) ∨ (off a = 0x00C ∧ s.pend = 0 ∧ s.err = false ∧ t.err = true))) ∧
    (s.pend = 0 → t.pend ≠ 0 → s.err = false ∧ ∃ a v q, s.input = .write a v :: q ∧ off a = 0x00C) ∧
    (s.pend ≠ 0 → t.pend ≠ s.pend → (∃ q, CoreNext s q) ∧ t.pend = 0) ∧
    (t.drop ≠ s.drop → ∃ a v q, s.input = .write a v :: q)
end

