-- ==== Sys2Proof/Laws/Memory.lean ====
section
/-! SUPPORT. The laws of the byte buffers: a read after a write, what a write leaves alone, and that every write keeps the
canonical form. -/

namespace Sys2Proof.Machine

@[simp] theorem memGet_nil (x : Nat) : memGet [] x = none := rfl

theorem memGet_append (m m' : Memory) (x : Nat) : memGet (m ++ m') x = (memGet m x).or (memGet m' x) := by
  induction m with
  | nil => simp
  | cons c m ih =>
    obtain ⟨a, b⟩ := c
    by_cases h : a = x <;> simp [memGet, h, ih]

theorem memGet_filter (p : Nat → Bool) (m : Memory) (x : Nat) :
    memGet (m.filter fun c => p c.1) x = if p x then memGet m x else none := by
  induction m with
  | nil => simp
  | cons c m ih =>
    obtain ⟨a, b⟩ := c
    by_cases ha : p a <;> by_cases h : a = x
    · subst h; simp [memGet, ha]
    · simp [memGet, ha, h, ih]
    · subst h; simp [ha, ih]
    · simp [memGet, ha, h, ih]

theorem memGet_cellsAt (s : List Byte) (i x : Nat) :
    memGet (cellsAt i s) x = if i ≤ x then s[x - i]? else none := by
  induction s generalizing i with
  | nil => simp [cellsAt]
  | cons b s ih =>
    simp only [cellsAt, memGet, ih]
    by_cases h : i = x
    · simp [h]
    · by_cases hle : i ≤ x
      · obtain ⟨k, rfl⟩ : ∃ k, x = i + 1 + k := ⟨x - i - 1, by omega⟩
        have h1 : i + 1 + k - i = k + 1 := by omega
        simp [h, hle, h1, show i + 1 ≤ i + 1 + k by omega, show i + 1 + k - (i + 1) = k by omega]
      · simp [h, hle, show ¬ i + 1 ≤ x by omega]

/-- What a write does, whole: the new bytes in its range, the old reading everywhere else. -/
theorem memGet_memWrite (m : Memory) (i : Nat) (s : List Byte) (x : Nat) :
    memGet (memWrite m i s) x = if i ≤ x ∧ x < i + s.length then s[x - i]? else memGet m x := by
  unfold memWrite
  rw [memGet_append, memGet_append, memGet_cellsAt, memGet_filter (fun a => decide (a < i)),
    memGet_filter (fun a => decide (i + s.length ≤ a))]
  by_cases h1 : x < i
  · simp [h1, show ¬ i ≤ x by omega, show ¬ i + s.length ≤ x by omega]
  · by_cases h2 : x < i + s.length
    · have h3 : x - i < s.length := by omega
      simp [h1, h2, h3, show i ≤ x by omega, show ¬ i + s.length ≤ x by omega]
    · have h3 : s.length ≤ x - i := by omega
      simp [h1, h2, show i ≤ x by omega, show i + s.length ≤ x by omega, List.getElem?_eq_none h3]

theorem memGet_memWrite_inside (m : Memory) (i : Nat) (s : List Byte) (j : Nat) (h : j < s.length) :
    memGet (memWrite m i s) (i + j) = s[j]? := by
  rw [memGet_memWrite, if_pos (by omega), Nat.add_sub_cancel_left]

theorem memGet_memWrite_outside (m : Memory) (i : Nat) (s : List Byte) (x : Nat) (h : x < i ∨ i + s.length ≤ x) :
    memGet (memWrite m i s) x = memGet m x := by
  rw [memGet_memWrite, if_neg (by omega)]

theorem cellsAt_index (s : List Byte) (i : Nat) : ∀ c ∈ cellsAt i s, i ≤ c.1 ∧ c.1 < i + s.length := by
  induction s generalizing i with
  | nil => simp [cellsAt]
  | cons b s ih =>
    intro c hc
    simp only [cellsAt, List.mem_cons] at hc
    rcases hc with rfl | hc
    · simp
    · have := ih (i + 1) c hc
      simp only [List.length_cons]
      omega

theorem cellsAt_wf (s : List Byte) (i : Nat) : Memory.wf (cellsAt i s) := by
  induction s generalizing i with
  | nil => simp [cellsAt, Memory.wf]
  | cons b s ih =>
    refine List.Pairwise.cons (fun c hc => ?_) (ih (i + 1))
    have := cellsAt_index s (i + 1) c hc
    simp only
    omega

/-- A write keeps the canonical form. -/
theorem memWrite_wf (m : Memory) (i : Nat) (s : List Byte) (h : Memory.wf m) : Memory.wf (memWrite m i s) := by
  unfold memWrite Memory.wf
  rw [List.pairwise_append, List.pairwise_append]
  refine ⟨⟨h.filter _, cellsAt_wf s i, ?_⟩, h.filter _, ?_⟩
  · intro c hc c' hc'
    have h1 := (List.mem_filter.1 hc).2
    have h2 := cellsAt_index s i c' hc'
    simp only [decide_eq_true_eq] at h1
    omega
  · intro c hc c' hc'
    have h2 := (List.mem_filter.1 hc').2
    simp only [decide_eq_true_eq] at h2
    rcases List.mem_append.1 hc with hc | hc
    · have h1 := (List.mem_filter.1 hc).2
      simp only [decide_eq_true_eq] at h1
      omega
    · have h1 := cellsAt_index s i c hc
      omega

/-- A write below `cap` keeps every index below `cap`. -/
theorem memWrite_bound (m : Memory) (i : Nat) (s : List Byte) (cap : Nat) (h : ∀ c ∈ m, c.1 < cap)
    (hs : i + s.length ≤ cap) : ∀ c ∈ memWrite m i s, c.1 < cap := by
  intro c hc
  simp only [memWrite, List.append_assoc, List.mem_append, List.mem_filter] at hc
  rcases hc with hc | hc | hc
  · exact h c hc.1
  · have := cellsAt_index s i c hc
    omega
  · exact h c hc.1

/-- A read answers as many bytes as it was asked for. -/
@[simp] theorem memRead_length (m : Memory) (i n d : Nat) : (memRead m i n d).1.length = n := by
  induction n generalizing i d with
  | zero => rfl
  | succ n ih => simp [memRead, ih]

/-- A byte that has been written is read as it is, wherever in the read it stands. -/
theorem memRead_written (m : Memory) (i n d j : Nat) (b : Byte) (hj : j < n) (hb : memGet m (i + j) = some b) :
    (memRead m i n d).1[j]? = some b := by
  induction n generalizing i d j with
  | zero => omega
  | succ n ih =>
    cases j with
    | zero => simpa [memRead, memReadByte] using by rw [Nat.add_zero] at hb; simp [hb]
    | succ j => simpa [memRead] using ih (i + 1) _ j (by omega) (by rw [← hb]; congr 1; omega)

/-- A read of bytes that have all been written answers them and draws nothing. -/
theorem memRead_all_written (m : Memory) (i d : Nat) (s : List Byte) (h : ∀ j, j < s.length → memGet m (i + j) = s[j]?) :
    memRead m i s.length d = (s, d) := by
  induction s generalizing i d with
  | nil => rfl
  | cons b s ih =>
    have h0 : memGet m i = some b := by simpa using h 0 (by simp)
    have hs : ∀ j, j < s.length → memGet m (i + 1 + j) = s[j]? := by
      intro j hj
      have := h (j + 1) (by simp [hj])
      rw [show i + 1 + j = i + (j + 1) by omega, this]
      simp
    simp [memRead, memReadByte, h0, ih (i + 1) d hs]

/-- A read depends only on the bytes in its range. -/
theorem memRead_congr (m m' : Memory) (i n d : Nat) (h : ∀ j, j < n → memGet m (i + j) = memGet m' (i + j)) :
    memRead m i n d = memRead m' i n d := by
  induction n generalizing i d with
  | zero => rfl
  | succ n ih =>
    have h0 : memGet m i = memGet m' i := by simpa using h 0 (by omega)
    have hs : ∀ d, memRead m (i + 1) n d = memRead m' (i + 1) n d := fun d =>
      ih (i + 1) d fun j hj => by
        have := h (j + 1) (by omega)
        rwa [show i + 1 + j = i + (j + 1) by omega]
    simp only [memRead, memReadByte, h0, hs]

/-- A read whose bytes have all been written draws nothing. -/
theorem memRead_draws (m : Memory) (i n d : Nat) (h : ∀ j, j < n → (memGet m (i + j)).isSome) :
    (memRead m i n d).2 = d := by
  induction n generalizing i d with
  | zero => rfl
  | succ n ih =>
    have h0 : (memGet m i).isSome := by simpa using h 0 (by omega)
    obtain ⟨b, hb⟩ := Option.isSome_iff_exists.1 h0
    have hs : ∀ j, j < n → (memGet m (i + 1 + j)).isSome := by
      intro j hj
      have := h (j + 1) (by omega)
      rwa [show i + 1 + j = i + (j + 1) by omega]
    simp [memRead, memReadByte, hb, ih (i + 1) d hs]

/-- Memory after reset lists nothing and is in canonical form. -/
theorem reset_memory_wf : Memory.wf State.reset.msg ∧ Memory.wf State.reset.pad := by
  constructor <;> exact List.Pairwise.nil

end Sys2Proof.Machine
end

