-- ==== Sys2Proof/Laws/State.lean ====
section
/-! SUPPORT. One lemma per field per named update of the state, so that no later proof unfolds a record update. -/

namespace Sys2Proof.Machine

variable (s : State)

/-! ### withInput -/

@[simp] theorem State.withInput_h (q : List Input) : (s.withInput q).h = s.h := rfl
@[simp] theorem State.withInput_v (q : List Input) : (s.withInput q).v = s.v := rfl
@[simp] theorem State.withInput_w (q : List Input) : (s.withInput q).w = s.w := rfl
@[simp] theorem State.withInput_blk (q : List Input) : (s.withInput q).blk = s.blk := rfl
@[simp] theorem State.withInput_dig (q : List Input) : (s.withInput q).dig = s.dig := rfl
@[simp] theorem State.withInput_msg (q : List Input) : (s.withInput q).msg = s.msg := rfl
@[simp] theorem State.withInput_pad (q : List Input) : (s.withInput q).pad = s.pad := rfl
@[simp] theorem State.withInput_msglen (q : List Input) : (s.withInput q).msglen = s.msglen := rfl
@[simp] theorem State.withInput_blksel (q : List Input) : (s.withInput q).blksel = s.blksel := rfl
@[simp] theorem State.withInput_padlen (q : List Input) : (s.withInput q).padlen = s.padlen := rfl
@[simp] theorem State.withInput_nblk (q : List Input) : (s.withInput q).nblk = s.nblk := rfl
@[simp] theorem State.withInput_msgptr (q : List Input) : (s.withInput q).msgptr = s.msgptr := rfl
@[simp] theorem State.withInput_padptr (q : List Input) : (s.withInput q).padptr = s.padptr := rfl
@[simp] theorem State.withInput_ie (q : List Input) : (s.withInput q).ie = s.ie := rfl
@[simp] theorem State.withInput_done (q : List Input) : (s.withInput q).done = s.done := rfl
@[simp] theorem State.withInput_err (q : List Input) : (s.withInput q).err = s.err := rfl
@[simp] theorem State.withInput_drop (q : List Input) : (s.withInput q).drop = s.drop := rfl
@[simp] theorem State.withInput_errcode (q : List Input) : (s.withInput q).errcode = s.errcode := rfl
@[simp] theorem State.withInput_pend (q : List Input) : (s.withInput q).pend = s.pend := rfl
@[simp] theorem State.withInput_msgCap (q : List Input) : (s.withInput q).msgCap = s.msgCap := rfl
@[simp] theorem State.withInput_input (q : List Input) : (s.withInput q).input = q := rfl
@[simp] theorem State.withInput_readData (q : List Input) : (s.withInput q).readData = s.readData := rfl
@[simp] theorem State.withInput_draws (q : List Input) : (s.withInput q).draws = s.draws := rfl

/-! ### withDraws -/

@[simp] theorem State.withDraws_h (d : Nat) : (s.withDraws d).h = s.h := rfl
@[simp] theorem State.withDraws_v (d : Nat) : (s.withDraws d).v = s.v := rfl
@[simp] theorem State.withDraws_w (d : Nat) : (s.withDraws d).w = s.w := rfl
@[simp] theorem State.withDraws_blk (d : Nat) : (s.withDraws d).blk = s.blk := rfl
@[simp] theorem State.withDraws_dig (d : Nat) : (s.withDraws d).dig = s.dig := rfl
@[simp] theorem State.withDraws_msg (d : Nat) : (s.withDraws d).msg = s.msg := rfl
@[simp] theorem State.withDraws_pad (d : Nat) : (s.withDraws d).pad = s.pad := rfl
@[simp] theorem State.withDraws_msglen (d : Nat) : (s.withDraws d).msglen = s.msglen := rfl
@[simp] theorem State.withDraws_blksel (d : Nat) : (s.withDraws d).blksel = s.blksel := rfl
@[simp] theorem State.withDraws_padlen (d : Nat) : (s.withDraws d).padlen = s.padlen := rfl
@[simp] theorem State.withDraws_nblk (d : Nat) : (s.withDraws d).nblk = s.nblk := rfl
@[simp] theorem State.withDraws_msgptr (d : Nat) : (s.withDraws d).msgptr = s.msgptr := rfl
@[simp] theorem State.withDraws_padptr (d : Nat) : (s.withDraws d).padptr = s.padptr := rfl
@[simp] theorem State.withDraws_ie (d : Nat) : (s.withDraws d).ie = s.ie := rfl
@[simp] theorem State.withDraws_done (d : Nat) : (s.withDraws d).done = s.done := rfl
@[simp] theorem State.withDraws_err (d : Nat) : (s.withDraws d).err = s.err := rfl
@[simp] theorem State.withDraws_drop (d : Nat) : (s.withDraws d).drop = s.drop := rfl
@[simp] theorem State.withDraws_errcode (d : Nat) : (s.withDraws d).errcode = s.errcode := rfl
@[simp] theorem State.withDraws_pend (d : Nat) : (s.withDraws d).pend = s.pend := rfl
@[simp] theorem State.withDraws_msgCap (d : Nat) : (s.withDraws d).msgCap = s.msgCap := rfl
@[simp] theorem State.withDraws_input (d : Nat) : (s.withDraws d).input = s.input := rfl
@[simp] theorem State.withDraws_readData (d : Nat) : (s.withDraws d).readData = s.readData := rfl
@[simp] theorem State.withDraws_draws (d : Nat) : (s.withDraws d).draws = d := rfl

/-! ### reply -/

@[simp] theorem State.reply_h (x : Word) : (s.reply x).h = s.h := rfl
@[simp] theorem State.reply_v (x : Word) : (s.reply x).v = s.v := rfl
@[simp] theorem State.reply_w (x : Word) : (s.reply x).w = s.w := rfl
@[simp] theorem State.reply_blk (x : Word) : (s.reply x).blk = s.blk := rfl
@[simp] theorem State.reply_dig (x : Word) : (s.reply x).dig = s.dig := rfl
@[simp] theorem State.reply_msg (x : Word) : (s.reply x).msg = s.msg := rfl
@[simp] theorem State.reply_pad (x : Word) : (s.reply x).pad = s.pad := rfl
@[simp] theorem State.reply_msglen (x : Word) : (s.reply x).msglen = s.msglen := rfl
@[simp] theorem State.reply_blksel (x : Word) : (s.reply x).blksel = s.blksel := rfl
@[simp] theorem State.reply_padlen (x : Word) : (s.reply x).padlen = s.padlen := rfl
@[simp] theorem State.reply_nblk (x : Word) : (s.reply x).nblk = s.nblk := rfl
@[simp] theorem State.reply_msgptr (x : Word) : (s.reply x).msgptr = s.msgptr := rfl
@[simp] theorem State.reply_padptr (x : Word) : (s.reply x).padptr = s.padptr := rfl
@[simp] theorem State.reply_ie (x : Word) : (s.reply x).ie = s.ie := rfl
@[simp] theorem State.reply_done (x : Word) : (s.reply x).done = s.done := rfl
@[simp] theorem State.reply_err (x : Word) : (s.reply x).err = s.err := rfl
@[simp] theorem State.reply_drop (x : Word) : (s.reply x).drop = s.drop := rfl
@[simp] theorem State.reply_errcode (x : Word) : (s.reply x).errcode = s.errcode := rfl
@[simp] theorem State.reply_pend (x : Word) : (s.reply x).pend = s.pend := rfl
@[simp] theorem State.reply_msgCap (x : Word) : (s.reply x).msgCap = s.msgCap := rfl
@[simp] theorem State.reply_input (x : Word) : (s.reply x).input = s.input := rfl
@[simp] theorem State.reply_readData (x : Word) : (s.reply x).readData = some x := rfl
@[simp] theorem State.reply_draws (x : Word) : (s.reply x).draws = s.draws := rfl

/-! ### setH -/

@[simp] theorem State.setH_h (f : Five) : (s.setH f).h = f := rfl
@[simp] theorem State.setH_v (f : Five) : (s.setH f).v = s.v := rfl
@[simp] theorem State.setH_w (f : Five) : (s.setH f).w = s.w := rfl
@[simp] theorem State.setH_blk (f : Five) : (s.setH f).blk = s.blk := rfl
@[simp] theorem State.setH_dig (f : Five) : (s.setH f).dig = s.dig := rfl
@[simp] theorem State.setH_msg (f : Five) : (s.setH f).msg = s.msg := rfl
@[simp] theorem State.setH_pad (f : Five) : (s.setH f).pad = s.pad := rfl
@[simp] theorem State.setH_msglen (f : Five) : (s.setH f).msglen = s.msglen := rfl
@[simp] theorem State.setH_blksel (f : Five) : (s.setH f).blksel = s.blksel := rfl
@[simp] theorem State.setH_padlen (f : Five) : (s.setH f).padlen = s.padlen := rfl
@[simp] theorem State.setH_nblk (f : Five) : (s.setH f).nblk = s.nblk := rfl
@[simp] theorem State.setH_msgptr (f : Five) : (s.setH f).msgptr = s.msgptr := rfl
@[simp] theorem State.setH_padptr (f : Five) : (s.setH f).padptr = s.padptr := rfl
@[simp] theorem State.setH_ie (f : Five) : (s.setH f).ie = s.ie := rfl
@[simp] theorem State.setH_done (f : Five) : (s.setH f).done = s.done := rfl
@[simp] theorem State.setH_err (f : Five) : (s.setH f).err = s.err := rfl
@[simp] theorem State.setH_drop (f : Five) : (s.setH f).drop = s.drop := rfl
@[simp] theorem State.setH_errcode (f : Five) : (s.setH f).errcode = s.errcode := rfl
@[simp] theorem State.setH_pend (f : Five) : (s.setH f).pend = s.pend := rfl
@[simp] theorem State.setH_msgCap (f : Five) : (s.setH f).msgCap = s.msgCap := rfl
@[simp] theorem State.setH_input (f : Five) : (s.setH f).input = s.input := rfl
@[simp] theorem State.setH_readData (f : Five) : (s.setH f).readData = s.readData := rfl
@[simp] theorem State.setH_draws (f : Five) : (s.setH f).draws = s.draws := rfl

/-! ### setV -/

@[simp] theorem State.setV_h (f : Five) : (s.setV f).h = s.h := rfl
@[simp] theorem State.setV_v (f : Five) : (s.setV f).v = f := rfl
@[simp] theorem State.setV_w (f : Five) : (s.setV f).w = s.w := rfl
@[simp] theorem State.setV_blk (f : Five) : (s.setV f).blk = s.blk := rfl
@[simp] theorem State.setV_dig (f : Five) : (s.setV f).dig = s.dig := rfl
@[simp] theorem State.setV_msg (f : Five) : (s.setV f).msg = s.msg := rfl
@[simp] theorem State.setV_pad (f : Five) : (s.setV f).pad = s.pad := rfl
@[simp] theorem State.setV_msglen (f : Five) : (s.setV f).msglen = s.msglen := rfl
@[simp] theorem State.setV_blksel (f : Five) : (s.setV f).blksel = s.blksel := rfl
@[simp] theorem State.setV_padlen (f : Five) : (s.setV f).padlen = s.padlen := rfl
@[simp] theorem State.setV_nblk (f : Five) : (s.setV f).nblk = s.nblk := rfl
@[simp] theorem State.setV_msgptr (f : Five) : (s.setV f).msgptr = s.msgptr := rfl
@[simp] theorem State.setV_padptr (f : Five) : (s.setV f).padptr = s.padptr := rfl
@[simp] theorem State.setV_ie (f : Five) : (s.setV f).ie = s.ie := rfl
@[simp] theorem State.setV_done (f : Five) : (s.setV f).done = s.done := rfl
@[simp] theorem State.setV_err (f : Five) : (s.setV f).err = s.err := rfl
@[simp] theorem State.setV_drop (f : Five) : (s.setV f).drop = s.drop := rfl
@[simp] theorem State.setV_errcode (f : Five) : (s.setV f).errcode = s.errcode := rfl
@[simp] theorem State.setV_pend (f : Five) : (s.setV f).pend = s.pend := rfl
@[simp] theorem State.setV_msgCap (f : Five) : (s.setV f).msgCap = s.msgCap := rfl
@[simp] theorem State.setV_input (f : Five) : (s.setV f).input = s.input := rfl
@[simp] theorem State.setV_readData (f : Five) : (s.setV f).readData = s.readData := rfl
@[simp] theorem State.setV_draws (f : Five) : (s.setV f).draws = s.draws := rfl

/-! ### setW -/

@[simp] theorem State.setW_h (x : Vector Word 80) : (s.setW x).h = s.h := rfl
@[simp] theorem State.setW_v (x : Vector Word 80) : (s.setW x).v = s.v := rfl
@[simp] theorem State.setW_w (x : Vector Word 80) : (s.setW x).w = x := rfl
@[simp] theorem State.setW_blk (x : Vector Word 80) : (s.setW x).blk = s.blk := rfl
@[simp] theorem State.setW_dig (x : Vector Word 80) : (s.setW x).dig = s.dig := rfl
@[simp] theorem State.setW_msg (x : Vector Word 80) : (s.setW x).msg = s.msg := rfl
@[simp] theorem State.setW_pad (x : Vector Word 80) : (s.setW x).pad = s.pad := rfl
@[simp] theorem State.setW_msglen (x : Vector Word 80) : (s.setW x).msglen = s.msglen := rfl
@[simp] theorem State.setW_blksel (x : Vector Word 80) : (s.setW x).blksel = s.blksel := rfl
@[simp] theorem State.setW_padlen (x : Vector Word 80) : (s.setW x).padlen = s.padlen := rfl
@[simp] theorem State.setW_nblk (x : Vector Word 80) : (s.setW x).nblk = s.nblk := rfl
@[simp] theorem State.setW_msgptr (x : Vector Word 80) : (s.setW x).msgptr = s.msgptr := rfl
@[simp] theorem State.setW_padptr (x : Vector Word 80) : (s.setW x).padptr = s.padptr := rfl
@[simp] theorem State.setW_ie (x : Vector Word 80) : (s.setW x).ie = s.ie := rfl
@[simp] theorem State.setW_done (x : Vector Word 80) : (s.setW x).done = s.done := rfl
@[simp] theorem State.setW_err (x : Vector Word 80) : (s.setW x).err = s.err := rfl
@[simp] theorem State.setW_drop (x : Vector Word 80) : (s.setW x).drop = s.drop := rfl
@[simp] theorem State.setW_errcode (x : Vector Word 80) : (s.setW x).errcode = s.errcode := rfl
@[simp] theorem State.setW_pend (x : Vector Word 80) : (s.setW x).pend = s.pend := rfl
@[simp] theorem State.setW_msgCap (x : Vector Word 80) : (s.setW x).msgCap = s.msgCap := rfl
@[simp] theorem State.setW_input (x : Vector Word 80) : (s.setW x).input = s.input := rfl
@[simp] theorem State.setW_readData (x : Vector Word 80) : (s.setW x).readData = s.readData := rfl
@[simp] theorem State.setW_draws (x : Vector Word 80) : (s.setW x).draws = s.draws := rfl

/-! ### setBlk -/

@[simp] theorem State.setBlk_h (b : Vector Byte 64) : (s.setBlk b).h = s.h := rfl
@[simp] theorem State.setBlk_v (b : Vector Byte 64) : (s.setBlk b).v = s.v := rfl
@[simp] theorem State.setBlk_w (b : Vector Byte 64) : (s.setBlk b).w = s.w := rfl
@[simp] theorem State.setBlk_blk (b : Vector Byte 64) : (s.setBlk b).blk = b := rfl
@[simp] theorem State.setBlk_dig (b : Vector Byte 64) : (s.setBlk b).dig = s.dig := rfl
@[simp] theorem State.setBlk_msg (b : Vector Byte 64) : (s.setBlk b).msg = s.msg := rfl
@[simp] theorem State.setBlk_pad (b : Vector Byte 64) : (s.setBlk b).pad = s.pad := rfl
@[simp] theorem State.setBlk_msglen (b : Vector Byte 64) : (s.setBlk b).msglen = s.msglen := rfl
@[simp] theorem State.setBlk_blksel (b : Vector Byte 64) : (s.setBlk b).blksel = s.blksel := rfl
@[simp] theorem State.setBlk_padlen (b : Vector Byte 64) : (s.setBlk b).padlen = s.padlen := rfl
@[simp] theorem State.setBlk_nblk (b : Vector Byte 64) : (s.setBlk b).nblk = s.nblk := rfl
@[simp] theorem State.setBlk_msgptr (b : Vector Byte 64) : (s.setBlk b).msgptr = s.msgptr := rfl
@[simp] theorem State.setBlk_padptr (b : Vector Byte 64) : (s.setBlk b).padptr = s.padptr := rfl
@[simp] theorem State.setBlk_ie (b : Vector Byte 64) : (s.setBlk b).ie = s.ie := rfl
@[simp] theorem State.setBlk_done (b : Vector Byte 64) : (s.setBlk b).done = s.done := rfl
@[simp] theorem State.setBlk_err (b : Vector Byte 64) : (s.setBlk b).err = s.err := rfl
@[simp] theorem State.setBlk_drop (b : Vector Byte 64) : (s.setBlk b).drop = s.drop := rfl
@[simp] theorem State.setBlk_errcode (b : Vector Byte 64) : (s.setBlk b).errcode = s.errcode := rfl
@[simp] theorem State.setBlk_pend (b : Vector Byte 64) : (s.setBlk b).pend = s.pend := rfl
@[simp] theorem State.setBlk_msgCap (b : Vector Byte 64) : (s.setBlk b).msgCap = s.msgCap := rfl
@[simp] theorem State.setBlk_input (b : Vector Byte 64) : (s.setBlk b).input = s.input := rfl
@[simp] theorem State.setBlk_readData (b : Vector Byte 64) : (s.setBlk b).readData = s.readData := rfl
@[simp] theorem State.setBlk_draws (b : Vector Byte 64) : (s.setBlk b).draws = s.draws := rfl

/-! ### setDig -/

@[simp] theorem State.setDig_h (b : Vector Byte 40) : (s.setDig b).h = s.h := rfl
@[simp] theorem State.setDig_v (b : Vector Byte 40) : (s.setDig b).v = s.v := rfl
@[simp] theorem State.setDig_w (b : Vector Byte 40) : (s.setDig b).w = s.w := rfl
@[simp] theorem State.setDig_blk (b : Vector Byte 40) : (s.setDig b).blk = s.blk := rfl
@[simp] theorem State.setDig_dig (b : Vector Byte 40) : (s.setDig b).dig = b := rfl
@[simp] theorem State.setDig_msg (b : Vector Byte 40) : (s.setDig b).msg = s.msg := rfl
@[simp] theorem State.setDig_pad (b : Vector Byte 40) : (s.setDig b).pad = s.pad := rfl
@[simp] theorem State.setDig_msglen (b : Vector Byte 40) : (s.setDig b).msglen = s.msglen := rfl
@[simp] theorem State.setDig_blksel (b : Vector Byte 40) : (s.setDig b).blksel = s.blksel := rfl
@[simp] theorem State.setDig_padlen (b : Vector Byte 40) : (s.setDig b).padlen = s.padlen := rfl
@[simp] theorem State.setDig_nblk (b : Vector Byte 40) : (s.setDig b).nblk = s.nblk := rfl
@[simp] theorem State.setDig_msgptr (b : Vector Byte 40) : (s.setDig b).msgptr = s.msgptr := rfl
@[simp] theorem State.setDig_padptr (b : Vector Byte 40) : (s.setDig b).padptr = s.padptr := rfl
@[simp] theorem State.setDig_ie (b : Vector Byte 40) : (s.setDig b).ie = s.ie := rfl
@[simp] theorem State.setDig_done (b : Vector Byte 40) : (s.setDig b).done = s.done := rfl
@[simp] theorem State.setDig_err (b : Vector Byte 40) : (s.setDig b).err = s.err := rfl
@[simp] theorem State.setDig_drop (b : Vector Byte 40) : (s.setDig b).drop = s.drop := rfl
@[simp] theorem State.setDig_errcode (b : Vector Byte 40) : (s.setDig b).errcode = s.errcode := rfl
@[simp] theorem State.setDig_pend (b : Vector Byte 40) : (s.setDig b).pend = s.pend := rfl
@[simp] theorem State.setDig_msgCap (b : Vector Byte 40) : (s.setDig b).msgCap = s.msgCap := rfl
@[simp] theorem State.setDig_input (b : Vector Byte 40) : (s.setDig b).input = s.input := rfl
@[simp] theorem State.setDig_readData (b : Vector Byte 40) : (s.setDig b).readData = s.readData := rfl
@[simp] theorem State.setDig_draws (b : Vector Byte 40) : (s.setDig b).draws = s.draws := rfl

/-! ### setMsg -/

@[simp] theorem State.setMsg_h (m : Memory) : (s.setMsg m).h = s.h := rfl
@[simp] theorem State.setMsg_v (m : Memory) : (s.setMsg m).v = s.v := rfl
@[simp] theorem State.setMsg_w (m : Memory) : (s.setMsg m).w = s.w := rfl
@[simp] theorem State.setMsg_blk (m : Memory) : (s.setMsg m).blk = s.blk := rfl
@[simp] theorem State.setMsg_dig (m : Memory) : (s.setMsg m).dig = s.dig := rfl
@[simp] theorem State.setMsg_msg (m : Memory) : (s.setMsg m).msg = m := rfl
@[simp] theorem State.setMsg_pad (m : Memory) : (s.setMsg m).pad = s.pad := rfl
@[simp] theorem State.setMsg_msglen (m : Memory) : (s.setMsg m).msglen = s.msglen := rfl
@[simp] theorem State.setMsg_blksel (m : Memory) : (s.setMsg m).blksel = s.blksel := rfl
@[simp] theorem State.setMsg_padlen (m : Memory) : (s.setMsg m).padlen = s.padlen := rfl
@[simp] theorem State.setMsg_nblk (m : Memory) : (s.setMsg m).nblk = s.nblk := rfl
@[simp] theorem State.setMsg_msgptr (m : Memory) : (s.setMsg m).msgptr = s.msgptr := rfl
@[simp] theorem State.setMsg_padptr (m : Memory) : (s.setMsg m).padptr = s.padptr := rfl
@[simp] theorem State.setMsg_ie (m : Memory) : (s.setMsg m).ie = s.ie := rfl
@[simp] theorem State.setMsg_done (m : Memory) : (s.setMsg m).done = s.done := rfl
@[simp] theorem State.setMsg_err (m : Memory) : (s.setMsg m).err = s.err := rfl
@[simp] theorem State.setMsg_drop (m : Memory) : (s.setMsg m).drop = s.drop := rfl
@[simp] theorem State.setMsg_errcode (m : Memory) : (s.setMsg m).errcode = s.errcode := rfl
@[simp] theorem State.setMsg_pend (m : Memory) : (s.setMsg m).pend = s.pend := rfl
@[simp] theorem State.setMsg_msgCap (m : Memory) : (s.setMsg m).msgCap = s.msgCap := rfl
@[simp] theorem State.setMsg_input (m : Memory) : (s.setMsg m).input = s.input := rfl
@[simp] theorem State.setMsg_readData (m : Memory) : (s.setMsg m).readData = s.readData := rfl
@[simp] theorem State.setMsg_draws (m : Memory) : (s.setMsg m).draws = s.draws := rfl

/-! ### setPad -/

@[simp] theorem State.setPad_h (m : Memory) (len n : Word) : (s.setPad m len n).h = s.h := rfl
@[simp] theorem State.setPad_v (m : Memory) (len n : Word) : (s.setPad m len n).v = s.v := rfl
@[simp] theorem State.setPad_w (m : Memory) (len n : Word) : (s.setPad m len n).w = s.w := rfl
@[simp] theorem State.setPad_blk (m : Memory) (len n : Word) : (s.setPad m len n).blk = s.blk := rfl
@[simp] theorem State.setPad_dig (m : Memory) (len n : Word) : (s.setPad m len n).dig = s.dig := rfl
@[simp] theorem State.setPad_msg (m : Memory) (len n : Word) : (s.setPad m len n).msg = s.msg := rfl
@[simp] theorem State.setPad_pad (m : Memory) (len n : Word) : (s.setPad m len n).pad = m := rfl
@[simp] theorem State.setPad_msglen (m : Memory) (len n : Word) : (s.setPad m len n).msglen = s.msglen := rfl
@[simp] theorem State.setPad_blksel (m : Memory) (len n : Word) : (s.setPad m len n).blksel = s.blksel := rfl
@[simp] theorem State.setPad_padlen (m : Memory) (len n : Word) : (s.setPad m len n).padlen = len := rfl
@[simp] theorem State.setPad_nblk (m : Memory) (len n : Word) : (s.setPad m len n).nblk = n := rfl
@[simp] theorem State.setPad_msgptr (m : Memory) (len n : Word) : (s.setPad m len n).msgptr = s.msgptr := rfl
@[simp] theorem State.setPad_padptr (m : Memory) (len n : Word) : (s.setPad m len n).padptr = s.padptr := rfl
@[simp] theorem State.setPad_ie (m : Memory) (len n : Word) : (s.setPad m len n).ie = s.ie := rfl
@[simp] theorem State.setPad_done (m : Memory) (len n : Word) : (s.setPad m len n).done = s.done := rfl
@[simp] theorem State.setPad_err (m : Memory) (len n : Word) : (s.setPad m len n).err = s.err := rfl
@[simp] theorem State.setPad_drop (m : Memory) (len n : Word) : (s.setPad m len n).drop = s.drop := rfl
@[simp] theorem State.setPad_errcode (m : Memory) (len n : Word) : (s.setPad m len n).errcode = s.errcode := rfl
@[simp] theorem State.setPad_pend (m : Memory) (len n : Word) : (s.setPad m len n).pend = s.pend := rfl
@[simp] theorem State.setPad_msgCap (m : Memory) (len n : Word) : (s.setPad m len n).msgCap = s.msgCap := rfl
@[simp] theorem State.setPad_input (m : Memory) (len n : Word) : (s.setPad m len n).input = s.input := rfl
@[simp] theorem State.setPad_readData (m : Memory) (len n : Word) : (s.setPad m len n).readData = s.readData := rfl
@[simp] theorem State.setPad_draws (m : Memory) (len n : Word) : (s.setPad m len n).draws = s.draws := rfl

/-! ### setMsglen -/

@[simp] theorem State.setMsglen_h (x : BitVec 64) : (s.setMsglen x).h = s.h := rfl
@[simp] theorem State.setMsglen_v (x : BitVec 64) : (s.setMsglen x).v = s.v := rfl
@[simp] theorem State.setMsglen_w (x : BitVec 64) : (s.setMsglen x).w = s.w := rfl
@[simp] theorem State.setMsglen_blk (x : BitVec 64) : (s.setMsglen x).blk = s.blk := rfl
@[simp] theorem State.setMsglen_dig (x : BitVec 64) : (s.setMsglen x).dig = s.dig := rfl
@[simp] theorem State.setMsglen_msg (x : BitVec 64) : (s.setMsglen x).msg = s.msg := rfl
@[simp] theorem State.setMsglen_pad (x : BitVec 64) : (s.setMsglen x).pad = s.pad := rfl
@[simp] theorem State.setMsglen_msglen (x : BitVec 64) : (s.setMsglen x).msglen = x := rfl
@[simp] theorem State.setMsglen_blksel (x : BitVec 64) : (s.setMsglen x).blksel = s.blksel := rfl
@[simp] theorem State.setMsglen_padlen (x : BitVec 64) : (s.setMsglen x).padlen = s.padlen := rfl
@[simp] theorem State.setMsglen_nblk (x : BitVec 64) : (s.setMsglen x).nblk = s.nblk := rfl
@[simp] theorem State.setMsglen_msgptr (x : BitVec 64) : (s.setMsglen x).msgptr = s.msgptr := rfl
@[simp] theorem State.setMsglen_padptr (x : BitVec 64) : (s.setMsglen x).padptr = s.padptr := rfl
@[simp] theorem State.setMsglen_ie (x : BitVec 64) : (s.setMsglen x).ie = s.ie := rfl
@[simp] theorem State.setMsglen_done (x : BitVec 64) : (s.setMsglen x).done = s.done := rfl
@[simp] theorem State.setMsglen_err (x : BitVec 64) : (s.setMsglen x).err = s.err := rfl
@[simp] theorem State.setMsglen_drop (x : BitVec 64) : (s.setMsglen x).drop = s.drop := rfl
@[simp] theorem State.setMsglen_errcode (x : BitVec 64) : (s.setMsglen x).errcode = s.errcode := rfl
@[simp] theorem State.setMsglen_pend (x : BitVec 64) : (s.setMsglen x).pend = s.pend := rfl
@[simp] theorem State.setMsglen_msgCap (x : BitVec 64) : (s.setMsglen x).msgCap = s.msgCap := rfl
@[simp] theorem State.setMsglen_input (x : BitVec 64) : (s.setMsglen x).input = s.input := rfl
@[simp] theorem State.setMsglen_readData (x : BitVec 64) : (s.setMsglen x).readData = s.readData := rfl
@[simp] theorem State.setMsglen_draws (x : BitVec 64) : (s.setMsglen x).draws = s.draws := rfl

/-! ### setBlksel -/

@[simp] theorem State.setBlksel_h (x : Word) : (s.setBlksel x).h = s.h := rfl
@[simp] theorem State.setBlksel_v (x : Word) : (s.setBlksel x).v = s.v := rfl
@[simp] theorem State.setBlksel_w (x : Word) : (s.setBlksel x).w = s.w := rfl
@[simp] theorem State.setBlksel_blk (x : Word) : (s.setBlksel x).blk = s.blk := rfl
@[simp] theorem State.setBlksel_dig (x : Word) : (s.setBlksel x).dig = s.dig := rfl
@[simp] theorem State.setBlksel_msg (x : Word) : (s.setBlksel x).msg = s.msg := rfl
@[simp] theorem State.setBlksel_pad (x : Word) : (s.setBlksel x).pad = s.pad := rfl
@[simp] theorem State.setBlksel_msglen (x : Word) : (s.setBlksel x).msglen = s.msglen := rfl
@[simp] theorem State.setBlksel_blksel (x : Word) : (s.setBlksel x).blksel = x := rfl
@[simp] theorem State.setBlksel_padlen (x : Word) : (s.setBlksel x).padlen = s.padlen := rfl
@[simp] theorem State.setBlksel_nblk (x : Word) : (s.setBlksel x).nblk = s.nblk := rfl
@[simp] theorem State.setBlksel_msgptr (x : Word) : (s.setBlksel x).msgptr = s.msgptr := rfl
@[simp] theorem State.setBlksel_padptr (x : Word) : (s.setBlksel x).padptr = s.padptr := rfl
@[simp] theorem State.setBlksel_ie (x : Word) : (s.setBlksel x).ie = s.ie := rfl
@[simp] theorem State.setBlksel_done (x : Word) : (s.setBlksel x).done = s.done := rfl
@[simp] theorem State.setBlksel_err (x : Word) : (s.setBlksel x).err = s.err := rfl
@[simp] theorem State.setBlksel_drop (x : Word) : (s.setBlksel x).drop = s.drop := rfl
@[simp] theorem State.setBlksel_errcode (x : Word) : (s.setBlksel x).errcode = s.errcode := rfl
@[simp] theorem State.setBlksel_pend (x : Word) : (s.setBlksel x).pend = s.pend := rfl
@[simp] theorem State.setBlksel_msgCap (x : Word) : (s.setBlksel x).msgCap = s.msgCap := rfl
@[simp] theorem State.setBlksel_input (x : Word) : (s.setBlksel x).input = s.input := rfl
@[simp] theorem State.setBlksel_readData (x : Word) : (s.setBlksel x).readData = s.readData := rfl
@[simp] theorem State.setBlksel_draws (x : Word) : (s.setBlksel x).draws = s.draws := rfl

/-! ### setMsgptr -/

@[simp] theorem State.setMsgptr_h (x : Word) : (s.setMsgptr x).h = s.h := rfl
@[simp] theorem State.setMsgptr_v (x : Word) : (s.setMsgptr x).v = s.v := rfl
@[simp] theorem State.setMsgptr_w (x : Word) : (s.setMsgptr x).w = s.w := rfl
@[simp] theorem State.setMsgptr_blk (x : Word) : (s.setMsgptr x).blk = s.blk := rfl
@[simp] theorem State.setMsgptr_dig (x : Word) : (s.setMsgptr x).dig = s.dig := rfl
@[simp] theorem State.setMsgptr_msg (x : Word) : (s.setMsgptr x).msg = s.msg := rfl
@[simp] theorem State.setMsgptr_pad (x : Word) : (s.setMsgptr x).pad = s.pad := rfl
@[simp] theorem State.setMsgptr_msglen (x : Word) : (s.setMsgptr x).msglen = s.msglen := rfl
@[simp] theorem State.setMsgptr_blksel (x : Word) : (s.setMsgptr x).blksel = s.blksel := rfl
@[simp] theorem State.setMsgptr_padlen (x : Word) : (s.setMsgptr x).padlen = s.padlen := rfl
@[simp] theorem State.setMsgptr_nblk (x : Word) : (s.setMsgptr x).nblk = s.nblk := rfl
@[simp] theorem State.setMsgptr_msgptr (x : Word) : (s.setMsgptr x).msgptr = x := rfl
@[simp] theorem State.setMsgptr_padptr (x : Word) : (s.setMsgptr x).padptr = s.padptr := rfl
@[simp] theorem State.setMsgptr_ie (x : Word) : (s.setMsgptr x).ie = s.ie := rfl
@[simp] theorem State.setMsgptr_done (x : Word) : (s.setMsgptr x).done = s.done := rfl
@[simp] theorem State.setMsgptr_err (x : Word) : (s.setMsgptr x).err = s.err := rfl
@[simp] theorem State.setMsgptr_drop (x : Word) : (s.setMsgptr x).drop = s.drop := rfl
@[simp] theorem State.setMsgptr_errcode (x : Word) : (s.setMsgptr x).errcode = s.errcode := rfl
@[simp] theorem State.setMsgptr_pend (x : Word) : (s.setMsgptr x).pend = s.pend := rfl
@[simp] theorem State.setMsgptr_msgCap (x : Word) : (s.setMsgptr x).msgCap = s.msgCap := rfl
@[simp] theorem State.setMsgptr_input (x : Word) : (s.setMsgptr x).input = s.input := rfl
@[simp] theorem State.setMsgptr_readData (x : Word) : (s.setMsgptr x).readData = s.readData := rfl
@[simp] theorem State.setMsgptr_draws (x : Word) : (s.setMsgptr x).draws = s.draws := rfl

/-! ### setPadptr -/

@[simp] theorem State.setPadptr_h (x : Word) : (s.setPadptr x).h = s.h := rfl
@[simp] theorem State.setPadptr_v (x : Word) : (s.setPadptr x).v = s.v := rfl
@[simp] theorem State.setPadptr_w (x : Word) : (s.setPadptr x).w = s.w := rfl
@[simp] theorem State.setPadptr_blk (x : Word) : (s.setPadptr x).blk = s.blk := rfl
@[simp] theorem State.setPadptr_dig (x : Word) : (s.setPadptr x).dig = s.dig := rfl
@[simp] theorem State.setPadptr_msg (x : Word) : (s.setPadptr x).msg = s.msg := rfl
@[simp] theorem State.setPadptr_pad (x : Word) : (s.setPadptr x).pad = s.pad := rfl
@[simp] theorem State.setPadptr_msglen (x : Word) : (s.setPadptr x).msglen = s.msglen := rfl
@[simp] theorem State.setPadptr_blksel (x : Word) : (s.setPadptr x).blksel = s.blksel := rfl
@[simp] theorem State.setPadptr_padlen (x : Word) : (s.setPadptr x).padlen = s.padlen := rfl
@[simp] theorem State.setPadptr_nblk (x : Word) : (s.setPadptr x).nblk = s.nblk := rfl
@[simp] theorem State.setPadptr_msgptr (x : Word) : (s.setPadptr x).msgptr = s.msgptr := rfl
@[simp] theorem State.setPadptr_padptr (x : Word) : (s.setPadptr x).padptr = x := rfl
@[simp] theorem State.setPadptr_ie (x : Word) : (s.setPadptr x).ie = s.ie := rfl
@[simp] theorem State.setPadptr_done (x : Word) : (s.setPadptr x).done = s.done := rfl
@[simp] theorem State.setPadptr_err (x : Word) : (s.setPadptr x).err = s.err := rfl
@[simp] theorem State.setPadptr_drop (x : Word) : (s.setPadptr x).drop = s.drop := rfl
@[simp] theorem State.setPadptr_errcode (x : Word) : (s.setPadptr x).errcode = s.errcode := rfl
@[simp] theorem State.setPadptr_pend (x : Word) : (s.setPadptr x).pend = s.pend := rfl
@[simp] theorem State.setPadptr_msgCap (x : Word) : (s.setPadptr x).msgCap = s.msgCap := rfl
@[simp] theorem State.setPadptr_input (x : Word) : (s.setPadptr x).input = s.input := rfl
@[simp] theorem State.setPadptr_readData (x : Word) : (s.setPadptr x).readData = s.readData := rfl
@[simp] theorem State.setPadptr_draws (x : Word) : (s.setPadptr x).draws = s.draws := rfl

/-! ### setIe -/

@[simp] theorem State.setIe_h (b : Bool) : (s.setIe b).h = s.h := rfl
@[simp] theorem State.setIe_v (b : Bool) : (s.setIe b).v = s.v := rfl
@[simp] theorem State.setIe_w (b : Bool) : (s.setIe b).w = s.w := rfl
@[simp] theorem State.setIe_blk (b : Bool) : (s.setIe b).blk = s.blk := rfl
@[simp] theorem State.setIe_dig (b : Bool) : (s.setIe b).dig = s.dig := rfl
@[simp] theorem State.setIe_msg (b : Bool) : (s.setIe b).msg = s.msg := rfl
@[simp] theorem State.setIe_pad (b : Bool) : (s.setIe b).pad = s.pad := rfl
@[simp] theorem State.setIe_msglen (b : Bool) : (s.setIe b).msglen = s.msglen := rfl
@[simp] theorem State.setIe_blksel (b : Bool) : (s.setIe b).blksel = s.blksel := rfl
@[simp] theorem State.setIe_padlen (b : Bool) : (s.setIe b).padlen = s.padlen := rfl
@[simp] theorem State.setIe_nblk (b : Bool) : (s.setIe b).nblk = s.nblk := rfl
@[simp] theorem State.setIe_msgptr (b : Bool) : (s.setIe b).msgptr = s.msgptr := rfl
@[simp] theorem State.setIe_padptr (b : Bool) : (s.setIe b).padptr = s.padptr := rfl
@[simp] theorem State.setIe_ie (b : Bool) : (s.setIe b).ie = b := rfl
@[simp] theorem State.setIe_done (b : Bool) : (s.setIe b).done = s.done := rfl
@[simp] theorem State.setIe_err (b : Bool) : (s.setIe b).err = s.err := rfl
@[simp] theorem State.setIe_drop (b : Bool) : (s.setIe b).drop = s.drop := rfl
@[simp] theorem State.setIe_errcode (b : Bool) : (s.setIe b).errcode = s.errcode := rfl
@[simp] theorem State.setIe_pend (b : Bool) : (s.setIe b).pend = s.pend := rfl
@[simp] theorem State.setIe_msgCap (b : Bool) : (s.setIe b).msgCap = s.msgCap := rfl
@[simp] theorem State.setIe_input (b : Bool) : (s.setIe b).input = s.input := rfl
@[simp] theorem State.setIe_readData (b : Bool) : (s.setIe b).readData = s.readData := rfl
@[simp] theorem State.setIe_draws (b : Bool) : (s.setIe b).draws = s.draws := rfl

/-! ### dropWrite -/

@[simp] theorem State.dropWrite_h : s.dropWrite.h = s.h := rfl
@[simp] theorem State.dropWrite_v : s.dropWrite.v = s.v := rfl
@[simp] theorem State.dropWrite_w : s.dropWrite.w = s.w := rfl
@[simp] theorem State.dropWrite_blk : s.dropWrite.blk = s.blk := rfl
@[simp] theorem State.dropWrite_dig : s.dropWrite.dig = s.dig := rfl
@[simp] theorem State.dropWrite_msg : s.dropWrite.msg = s.msg := rfl
@[simp] theorem State.dropWrite_pad : s.dropWrite.pad = s.pad := rfl
@[simp] theorem State.dropWrite_msglen : s.dropWrite.msglen = s.msglen := rfl
@[simp] theorem State.dropWrite_blksel : s.dropWrite.blksel = s.blksel := rfl
@[simp] theorem State.dropWrite_padlen : s.dropWrite.padlen = s.padlen := rfl
@[simp] theorem State.dropWrite_nblk : s.dropWrite.nblk = s.nblk := rfl
@[simp] theorem State.dropWrite_msgptr : s.dropWrite.msgptr = s.msgptr := rfl
@[simp] theorem State.dropWrite_padptr : s.dropWrite.padptr = s.padptr := rfl
@[simp] theorem State.dropWrite_ie : s.dropWrite.ie = s.ie := rfl
@[simp] theorem State.dropWrite_done : s.dropWrite.done = s.done := rfl
@[simp] theorem State.dropWrite_err : s.dropWrite.err = s.err := rfl
@[simp] theorem State.dropWrite_drop : s.dropWrite.drop = true := rfl
@[simp] theorem State.dropWrite_errcode : s.dropWrite.errcode = s.errcode := rfl
@[simp] theorem State.dropWrite_pend : s.dropWrite.pend = s.pend := rfl
@[simp] theorem State.dropWrite_msgCap : s.dropWrite.msgCap = s.msgCap := rfl
@[simp] theorem State.dropWrite_input : s.dropWrite.input = s.input := rfl
@[simp] theorem State.dropWrite_readData : s.dropWrite.readData = s.readData := rfl
@[simp] theorem State.dropWrite_draws : s.dropWrite.draws = s.draws := rfl

/-! ### reject -/

@[simp] theorem State.reject_h (e : CmdError) : (s.reject e).h = s.h := rfl
@[simp] theorem State.reject_v (e : CmdError) : (s.reject e).v = s.v := rfl
@[simp] theorem State.reject_w (e : CmdError) : (s.reject e).w = s.w := rfl
@[simp] theorem State.reject_blk (e : CmdError) : (s.reject e).blk = s.blk := rfl
@[simp] theorem State.reject_dig (e : CmdError) : (s.reject e).dig = s.dig := rfl
@[simp] theorem State.reject_msg (e : CmdError) : (s.reject e).msg = s.msg := rfl
@[simp] theorem State.reject_pad (e : CmdError) : (s.reject e).pad = s.pad := rfl
@[simp] theorem State.reject_msglen (e : CmdError) : (s.reject e).msglen = s.msglen := rfl
@[simp] theorem State.reject_blksel (e : CmdError) : (s.reject e).blksel = s.blksel := rfl
@[simp] theorem State.reject_padlen (e : CmdError) : (s.reject e).padlen = s.padlen := rfl
@[simp] theorem State.reject_nblk (e : CmdError) : (s.reject e).nblk = s.nblk := rfl
@[simp] theorem State.reject_msgptr (e : CmdError) : (s.reject e).msgptr = s.msgptr := rfl
@[simp] theorem State.reject_padptr (e : CmdError) : (s.reject e).padptr = s.padptr := rfl
@[simp] theorem State.reject_ie (e : CmdError) : (s.reject e).ie = s.ie := rfl
@[simp] theorem State.reject_done (e : CmdError) : (s.reject e).done = false := rfl
@[simp] theorem State.reject_err (e : CmdError) : (s.reject e).err = true := rfl
@[simp] theorem State.reject_drop (e : CmdError) : (s.reject e).drop = s.drop := rfl
@[simp] theorem State.reject_errcode (e : CmdError) : (s.reject e).errcode = errorCode e := rfl
@[simp] theorem State.reject_pend (e : CmdError) : (s.reject e).pend = s.pend := rfl
@[simp] theorem State.reject_msgCap (e : CmdError) : (s.reject e).msgCap = s.msgCap := rfl
@[simp] theorem State.reject_input (e : CmdError) : (s.reject e).input = s.input := rfl
@[simp] theorem State.reject_readData (e : CmdError) : (s.reject e).readData = s.readData := rfl
@[simp] theorem State.reject_draws (e : CmdError) : (s.reject e).draws = s.draws := rfl

/-! ### accept -/

@[simp] theorem State.accept_h (op : BitVec 4) : (s.accept op).h = s.h := rfl
@[simp] theorem State.accept_v (op : BitVec 4) : (s.accept op).v = s.v := rfl
@[simp] theorem State.accept_w (op : BitVec 4) : (s.accept op).w = s.w := rfl
@[simp] theorem State.accept_blk (op : BitVec 4) : (s.accept op).blk = s.blk := rfl
@[simp] theorem State.accept_dig (op : BitVec 4) : (s.accept op).dig = s.dig := rfl
@[simp] theorem State.accept_msg (op : BitVec 4) : (s.accept op).msg = s.msg := rfl
@[simp] theorem State.accept_pad (op : BitVec 4) : (s.accept op).pad = s.pad := rfl
@[simp] theorem State.accept_msglen (op : BitVec 4) : (s.accept op).msglen = s.msglen := rfl
@[simp] theorem State.accept_blksel (op : BitVec 4) : (s.accept op).blksel = s.blksel := rfl
@[simp] theorem State.accept_padlen (op : BitVec 4) : (s.accept op).padlen = s.padlen := rfl
@[simp] theorem State.accept_nblk (op : BitVec 4) : (s.accept op).nblk = s.nblk := rfl
@[simp] theorem State.accept_msgptr (op : BitVec 4) : (s.accept op).msgptr = s.msgptr := rfl
@[simp] theorem State.accept_padptr (op : BitVec 4) : (s.accept op).padptr = s.padptr := rfl
@[simp] theorem State.accept_ie (op : BitVec 4) : (s.accept op).ie = s.ie := rfl
@[simp] theorem State.accept_done (op : BitVec 4) : (s.accept op).done = false := rfl
@[simp] theorem State.accept_err (op : BitVec 4) : (s.accept op).err = s.err := rfl
@[simp] theorem State.accept_drop (op : BitVec 4) : (s.accept op).drop = s.drop := rfl
@[simp] theorem State.accept_errcode (op : BitVec 4) : (s.accept op).errcode = s.errcode := rfl
@[simp] theorem State.accept_pend (op : BitVec 4) : (s.accept op).pend = op := rfl
@[simp] theorem State.accept_msgCap (op : BitVec 4) : (s.accept op).msgCap = s.msgCap := rfl
@[simp] theorem State.accept_input (op : BitVec 4) : (s.accept op).input = s.input := rfl
@[simp] theorem State.accept_readData (op : BitVec 4) : (s.accept op).readData = s.readData := rfl
@[simp] theorem State.accept_draws (op : BitVec 4) : (s.accept op).draws = s.draws := rfl

/-! ### finish -/

@[simp] theorem State.finish_h : s.finish.h = s.h := rfl
@[simp] theorem State.finish_v : s.finish.v = s.v := rfl
@[simp] theorem State.finish_w : s.finish.w = s.w := rfl
@[simp] theorem State.finish_blk : s.finish.blk = s.blk := rfl
@[simp] theorem State.finish_dig : s.finish.dig = s.dig := rfl
@[simp] theorem State.finish_msg : s.finish.msg = s.msg := rfl
@[simp] theorem State.finish_pad : s.finish.pad = s.pad := rfl
@[simp] theorem State.finish_msglen : s.finish.msglen = s.msglen := rfl
@[simp] theorem State.finish_blksel : s.finish.blksel = s.blksel := rfl
@[simp] theorem State.finish_padlen : s.finish.padlen = s.padlen := rfl
@[simp] theorem State.finish_nblk : s.finish.nblk = s.nblk := rfl
@[simp] theorem State.finish_msgptr : s.finish.msgptr = s.msgptr := rfl
@[simp] theorem State.finish_padptr : s.finish.padptr = s.padptr := rfl
@[simp] theorem State.finish_ie : s.finish.ie = s.ie := rfl
@[simp] theorem State.finish_done : s.finish.done = true := rfl
@[simp] theorem State.finish_err : s.finish.err = s.err := rfl
@[simp] theorem State.finish_drop : s.finish.drop = s.drop := rfl
@[simp] theorem State.finish_errcode : s.finish.errcode = s.errcode := rfl
@[simp] theorem State.finish_pend : s.finish.pend = 0 := rfl
@[simp] theorem State.finish_msgCap : s.finish.msgCap = s.msgCap := rfl
@[simp] theorem State.finish_input : s.finish.input = s.input := rfl
@[simp] theorem State.finish_readData : s.finish.readData = s.readData := rfl
@[simp] theorem State.finish_draws : s.finish.draws = s.draws := rfl

/-! ### acknowledge -/

@[simp] theorem State.acknowledge_h : s.acknowledge.h = s.h := rfl
@[simp] theorem State.acknowledge_v : s.acknowledge.v = s.v := rfl
@[simp] theorem State.acknowledge_w : s.acknowledge.w = s.w := rfl
@[simp] theorem State.acknowledge_blk : s.acknowledge.blk = s.blk := rfl
@[simp] theorem State.acknowledge_dig : s.acknowledge.dig = s.dig := rfl
@[simp] theorem State.acknowledge_msg : s.acknowledge.msg = s.msg := rfl
@[simp] theorem State.acknowledge_pad : s.acknowledge.pad = s.pad := rfl
@[simp] theorem State.acknowledge_msglen : s.acknowledge.msglen = s.msglen := rfl
@[simp] theorem State.acknowledge_blksel : s.acknowledge.blksel = s.blksel := rfl
@[simp] theorem State.acknowledge_padlen : s.acknowledge.padlen = s.padlen := rfl
@[simp] theorem State.acknowledge_nblk : s.acknowledge.nblk = s.nblk := rfl
@[simp] theorem State.acknowledge_msgptr : s.acknowledge.msgptr = s.msgptr := rfl
@[simp] theorem State.acknowledge_padptr : s.acknowledge.padptr = s.padptr := rfl
@[simp] theorem State.acknowledge_ie : s.acknowledge.ie = s.ie := rfl
@[simp] theorem State.acknowledge_done : s.acknowledge.done = s.done := rfl
@[simp] theorem State.acknowledge_err : s.acknowledge.err = false := rfl
@[simp] theorem State.acknowledge_drop : s.acknowledge.drop = s.drop := rfl
@[simp] theorem State.acknowledge_errcode : s.acknowledge.errcode = 0 := rfl
@[simp] theorem State.acknowledge_pend : s.acknowledge.pend = s.pend := rfl
@[simp] theorem State.acknowledge_msgCap : s.acknowledge.msgCap = s.msgCap := rfl
@[simp] theorem State.acknowledge_input : s.acknowledge.input = s.input := rfl
@[simp] theorem State.acknowledge_readData : s.acknowledge.readData = s.readData := rfl
@[simp] theorem State.acknowledge_draws : s.acknowledge.draws = s.draws := rfl

end Sys2Proof.Machine
end

