-- ==== Sys2Proof/Laws/Bus.lean ====
section
/-! SUPPORT. What a Host access can do, said once: the register an address selects, a write while a command runs and while
none does, and everything a read can change. -/

namespace Sys2Proof.Machine

/-- The offset of an address, in arithmetic. -/
theorem offsetOf_eq (a : Word) : offsetOf a = a.toNat / 4 % 1024 * 4 := by
  simp only [offsetOf, BitVec.extractLsb'_toNat, Nat.shiftRight_eq_div_pow]

theorem busy_eq_false {s : State} : s.busy = false ↔ s.pend = 0 := by simp [State.busy]

theorem busy_eq_true {s : State} : s.busy = true ↔ s.pend ≠ 0 := by simp [State.busy]

/-- A write to STATUS, field by field. -/
theorem statusWrite_eq (v : Word) (s : State) :
    statusWrite v s =
      { s with done := s.done && !v.getLsbD 1, err := s.err && !v.getLsbD 2, drop := s.drop && !v.getLsbD 3,
               errcode := if v.getLsbD 2 then 0 else s.errcode } := by
  unfold statusWrite clearDoneDrop State.acknowledge
  cases v.getLsbD 2 <;> simp

theorem hostWrite_ctrl {a : Word} (v : Word) (s : State) (h : regAt (offsetOf a) = some .ctrl) :
    hostWrite a v s = .quiet (s.setIe (v.getLsbD 0)) := by
  simp [hostWrite, h]

theorem hostWrite_status {a : Word} (v : Word) (s : State) (h : regAt (offsetOf a) = some .status) :
    hostWrite a v s = .quiet (statusWrite v s) := by
  simp [hostWrite, h]

/-- While a command runs every other write is dropped. -/
theorem hostWrite_busy {a : Word} (v : Word) {s : State} (hb : s.busy = true) (hc : regAt (offsetOf a) ≠ some .ctrl)
    (hs : regAt (offsetOf a) ≠ some .status) : hostWrite a v s = .quiet s.dropWrite := by
  rw [hostWrite, if_pos ⟨hb, hc, hs⟩]

/-- What a write to a register comes to while no command runs; `none` is a reserved offset. -/
def idleWrite (o : Option Reg) (v : Word) (s : State) : Turn :=
  match o with
  | some .ctrl => .quiet (s.setIe (v.getLsbD 0))
  | some .status => .quiet (statusWrite v s)
  | some .cmd => commandWrite v s
  | some .msglenLo => .quiet (s.setMsglen (s.msglen.extractLsb' 32 32 ++ v))
  | some .msglenHi => .quiet (s.setMsglen (v ++ s.msglen.extractLsb' 0 32))
  | some .blksel => .quiet (s.setBlksel v)
  | some .msgptr => .quiet (s.setMsgptr (v &&& 0xFFFFFFFC))
  | some .msgdata => .quiet (msgDataWrite v s)
  | some .padptr => .quiet (s.setPadptr (v &&& 0xFFFFFFFC))
  | some _ | none => .quiet s

theorem hostWrite_idle (a v : Word) {s : State} (hb : s.busy = false) :
    hostWrite a v s = idleWrite (regAt (offsetOf a)) v s := by
  unfold hostWrite
  rw [if_neg (by simp [hb])]
  generalize regAt (offsetOf a) = o
  cases o with
  | none => rfl
  | some r => cases r <;> rfl

/-- Everything a read can change: what it returns, the count of draws, and, while no command runs, one port pointer. -/
theorem hostRead_shape (a : Word) (s : State) :
    ∃ x d m p, hostRead a s = { s with readData := x, draws := d, msgptr := m, padptr := p } ∧
      (m = s.msgptr ∨ m = s.msgptr + 4 ∧ s.pend = 0) ∧ (p = s.padptr ∨ p = s.padptr + 4 ∧ s.pend = 0) := by
  unfold hostRead
  cases regAt (offsetOf a) with
  | none => exact ⟨_, _, _, _, rfl, .inl rfl, .inl rfl⟩
  | some r =>
    by_cases hp : s.pend = 0
    · simp only [busy_eq_false.2 hp, Bool.false_and, Bool.false_eq_true, if_false]
      cases r with
      | msgdata =>
        simp only [msgDataRead]
        split <;> exact ⟨_, _, _, _, rfl, .inr ⟨rfl, hp⟩, .inl rfl⟩
      | paddata =>
        simp only [padDataRead]
        split <;> exact ⟨_, _, _, _, rfl, .inl rfl, .inr ⟨rfl, hp⟩⟩
      | _ => exact ⟨_, _, _, _, rfl, .inl rfl, .inl rfl⟩
    · simp only [busy_eq_true.2 hp, Bool.true_and]
      cases r <;> exact ⟨_, _, _, _, rfl, .inl rfl, .inl rfl⟩

end Sys2Proof.Machine
end

