-- ==== Sys2Proof/Laws/Commands.lean ====
section
/-! SUPPORT. What a command can do, said once: every meaning is `runCommand` with the command's opcode, check and effect;
and what each effect leaves unchanged. -/

namespace Sys2Proof.Machine

/-- The acceptance check of each command (R105). -/
def checkOf (s : State) : Instr → Option CmdError
  | .pad | .hash => lengthCheck s
  | .split => rangeCheck s
  | .init | .sched | .compress | .format => none

/-- The completion of each command (R95). -/
def effectOf : Instr → State → State
  | .init => initEffect
  | .pad => padEffect
  | .split => splitEffect
  | .sched => schedEffect
  | .compress => compressEffect
  | .format => formatEffect
  | .hash => hashEffect

@[simp] theorem checkOf_init (s : State) : checkOf s .init = none := rfl
@[simp] theorem checkOf_pad (s : State) : checkOf s .pad = lengthCheck s := rfl
@[simp] theorem checkOf_split (s : State) : checkOf s .split = rangeCheck s := rfl
@[simp] theorem checkOf_sched (s : State) : checkOf s .sched = none := rfl
@[simp] theorem checkOf_compress (s : State) : checkOf s .compress = none := rfl
@[simp] theorem checkOf_format (s : State) : checkOf s .format = none := rfl
@[simp] theorem checkOf_hash (s : State) : checkOf s .hash = lengthCheck s := rfl

@[simp] theorem effectOf_init : effectOf .init = initEffect := rfl
@[simp] theorem effectOf_pad : effectOf .pad = padEffect := rfl
@[simp] theorem effectOf_split : effectOf .split = splitEffect := rfl
@[simp] theorem effectOf_sched : effectOf .sched = schedEffect := rfl
@[simp] theorem effectOf_compress : effectOf .compress = compressEffect := rfl
@[simp] theorem effectOf_format : effectOf .format = formatEffect := rfl
@[simp] theorem effectOf_hash : effectOf .hash = hashEffect := rfl

theorem exec_eq_runCommand (i : Instr) (s : State) :
    exec i s = runCommand (opcodeOf i) (checkOf s i) (effectOf i) s := by
  cases i <;> rfl

theorem opcodeOf_ne_zero (i : Instr) : opcodeOf i ≠ 0 := by cases i <;> decide

theorem commandOf_opcodeOf (i : Instr) : commandOf (opcodeOf i) = some i := by cases i <;> rfl

theorem opcodeOf_of_commandOf {op : BitVec 4} {i : Instr} (h : commandOf op = some i) : op = opcodeOf i := by
  revert i
  revert op
  decide +revert

/-- The command in flight completes. -/
theorem exec_in_flight {i : Instr} {s : State} (h : s.pend = opcodeOf i) : exec i s = .next (effectOf i s).finish := by
  rw [exec_eq_runCommand, runCommand, if_pos h]

/-- Any other command is presented. -/
theorem exec_not_in_flight {i : Instr} {s : State} (h : s.pend ≠ opcodeOf i) :
    exec i s = .next (present (opcodeOf i) (checkOf s i) s) := by
  rw [exec_eq_runCommand, runCommand, if_neg h]

/-- Everything `present` can do. -/
theorem present_cases (op : BitVec 4) (check : Option CmdError) (s : State) :
    ((s.pend ≠ 0 ∨ s.err = true) ∧ present op check s = s.dropWrite) ∨
    (s.pend = 0 ∧ s.err = false ∧ ∃ e, check = some e ∧ present op check s = s.reject e) ∨
    (s.pend = 0 ∧ s.err = false ∧ check = none ∧ present op check s = s.accept op) := by
  unfold present State.busy
  by_cases hp : s.pend = 0#4 <;> cases he : s.err <;> cases check <;> simp [hp]

/-- A command that an idle block finds no fault with is accepted. -/
theorem exec_accepts {i : Instr} {s : State} (hp : s.pend = 0) (he : s.err = false) (hc : checkOf s i = none) :
    exec i s = .next (s.accept (opcodeOf i)) := by
  rw [exec_not_in_flight (by rw [hp]; exact (opcodeOf_ne_zero i).symm)]
  simp [present, State.busy, hp, he, hc]

/-- A command that fails a check of an idle block is rejected. -/
theorem exec_rejects {i : Instr} {s : State} {e : CmdError} (hp : s.pend = 0) (he : s.err = false)
    (hc : checkOf s i = some e) : exec i s = .next (s.reject e) := by
  rw [exec_not_in_flight (by rw [hp]; exact (opcodeOf_ne_zero i).symm)]
  simp [present, State.busy, hp, he, hc]

/-- Everything a meaning can do: complete, be dropped, be rejected or be accepted. -/
theorem exec_cases {i : Instr} {s t : State} (h : exec i s = .next t) :
    (s.pend = opcodeOf i ∧ t = (effectOf i s).finish) ∨
    ((s.pend ≠ 0 ∨ s.err = true) ∧ t = s.dropWrite) ∨
    (s.pend = 0 ∧ s.err = false ∧ ∃ e, checkOf s i = some e ∧ t = s.reject e) ∨
    (s.pend = 0 ∧ s.err = false ∧ checkOf s i = none ∧ t = s.accept (opcodeOf i)) := by
  by_cases hp : s.pend = opcodeOf i
  · rw [exec_in_flight hp] at h
    exact .inl ⟨hp, (Host.Outcome.next.inj h).symm⟩
  · rw [exec_not_in_flight hp] at h
    obtain rfl := Host.Outcome.next.inj h
    exact .inr (present_cases _ _ _)

/-! ### The effects: what each writes, and nothing else -/

theorem initEffect_eq (s : State) : initEffect s = s.setH iv := rfl

theorem padEffect_eq (s : State) :
    padEffect s =
      (s.setPad (memWrite s.pad 0 (padMessage (message s).1)) (BitVec.ofNat 32 (padlen (msgLength s)))
        (BitVec.ofNat 32 (padlen (msgLength s) / 64))).withDraws (message s).2 := rfl

theorem splitEffect_eq (s : State) : splitEffect s = splitBlock (blockIndex s) s := rfl

theorem splitBlock_eq (j : Nat) (s : State) :
    splitBlock j s = (s.setBlk (bufferOf 64 (paddedBlock j s).1)).withDraws (paddedBlock j s).2 := rfl

theorem schedEffect_eq (s : State) : schedEffect s = s.setW (schedule s.blk s.w) := rfl

theorem compressEffect_eq (s : State) :
    compressEffect s = (s.setV (rounds s.h s.w)).setH (fiveAdd s.h (rounds s.h s.w)) := rfl

/-- `compress` by component. The rounds are a variable in the proofs, so that no comparison runs them. -/
theorem compress_fst (h : Five) (w : Vector Word 80) : (compress h w).1 = fiveAdd h (rounds h w) := by
  unfold compress
  generalize rounds h w = r
  rfl

theorem compress_snd (h : Five) (w : Vector Word 80) : (compress h w).2 = rounds h w := by
  unfold compress
  generalize rounds h w = r
  rfl

theorem formatEffect_eq (s : State) : formatEffect s = s.setDig (bufferOf 40 (digest s.h)) := rfl

/-! The shape of each effect, with what it writes left open. A comparison of two states whose buffers or words are written
out runs the rounds; a proof that needs only the frame takes the shape. -/

theorem padEffect_shape (s : State) : ∃ m l n d, padEffect s = (s.setPad m l n).withDraws d := ⟨_, _, _, _, padEffect_eq s⟩

theorem splitEffect_shape (s : State) : ∃ b d, splitEffect s = (s.setBlk b).withDraws d :=
  ⟨_, _, (splitEffect_eq s).trans (splitBlock_eq _ s)⟩

theorem schedEffect_shape (s : State) : ∃ w, schedEffect s = s.setW w := ⟨_, schedEffect_eq s⟩

theorem compressEffect_shape (s : State) : ∃ f g, compressEffect s = (s.setV f).setH g := ⟨_, _, compressEffect_eq s⟩

theorem formatEffect_shape (s : State) : ∃ b, formatEffect s = s.setDig b := ⟨_, formatEffect_eq s⟩

/-- One pass of HASH's loop: a block, its schedule, its compression. -/
theorem hashBlock_eq (s : State) (j : Nat) :
    hashBlock s j =
      let blk := bufferOf 64 (paddedBlock j s).1
      let w := schedule blk s.w
      ((((s.setBlk blk).withDraws (paddedBlock j s).2).setW w).setV (rounds s.h w)).setH (fiveAdd s.h (rounds s.h w)) := by
  simp only [hashBlock, compressEffect_eq, schedEffect_eq, splitBlock_eq, State.setW_h, State.withDraws_h, State.setBlk_h,
    State.setW_w, State.withDraws_blk, State.setBlk_blk, State.withDraws_w, State.setBlk_w]

/-- Two states that agree in every field HASH's loop leaves alone. -/
structure SameOutsideLoop (s t : State) : Prop where
  dig : t.dig = s.dig
  msg : t.msg = s.msg
  pad : t.pad = s.pad
  msglen : t.msglen = s.msglen
  blksel : t.blksel = s.blksel
  padlen : t.padlen = s.padlen
  nblk : t.nblk = s.nblk
  msgptr : t.msgptr = s.msgptr
  padptr : t.padptr = s.padptr
  ie : t.ie = s.ie
  done : t.done = s.done
  err : t.err = s.err
  drop : t.drop = s.drop
  errcode : t.errcode = s.errcode
  pend : t.pend = s.pend
  msgCap : t.msgCap = s.msgCap
  input : t.input = s.input
  readData : t.readData = s.readData

theorem SameOutsideLoop.refl (s : State) : SameOutsideLoop s s := by constructor <;> rfl

theorem SameOutsideLoop.trans {s t u : State} (h : SameOutsideLoop s t) (h' : SameOutsideLoop t u) :
    SameOutsideLoop s u := by
  constructor <;> simp [h.dig, h.msg, h.pad, h.msglen, h.blksel, h.padlen, h.nblk, h.msgptr, h.padptr, h.ie, h.done,
    h.err, h.drop, h.errcode, h.pend, h.msgCap, h.input, h.readData, h'.dig, h'.msg, h'.pad, h'.msglen, h'.blksel,
    h'.padlen, h'.nblk, h'.msgptr, h'.padptr, h'.ie, h'.done, h'.err, h'.drop, h'.errcode, h'.pend, h'.msgCap,
    h'.input, h'.readData]

theorem setBlk_same (s : State) (b : Vector Byte 64) : SameOutsideLoop s (s.setBlk b) := by constructor <;> rfl
theorem withDraws_same (s : State) (d : Nat) : SameOutsideLoop s (s.withDraws d) := by constructor <;> rfl
theorem setW_same (s : State) (w : Vector Word 80) : SameOutsideLoop s (s.setW w) := by constructor <;> rfl
theorem setV_same (s : State) (f : Five) : SameOutsideLoop s (s.setV f) := by constructor <;> rfl
theorem setH_same (s : State) (f : Five) : SameOutsideLoop s (s.setH f) := by constructor <;> rfl

theorem hashBlock_same (s : State) (j : Nat) : SameOutsideLoop s (hashBlock s j) := by
  rw [hashBlock_eq]
  exact ((((setBlk_same s _).trans (withDraws_same _ _)).trans (setW_same _ _)).trans (setV_same _ _)).trans
    (setH_same _ _)

/-- HASH's loop, over any blocks, leaves alone what one pass leaves alone. -/
theorem foldl_hashBlock_same (l : List Nat) (s : State) : SameOutsideLoop s (l.foldl hashBlock s) := by
  induction l generalizing s with
  | nil => exact SameOutsideLoop.refl s
  | cons j l ih =>
    rw [List.foldl_cons]
    exact (hashBlock_same s j).trans (ih (hashBlock s j))

/-- The state of HASH before its FORMAT (R91). Irreducible, so that no comparison of states runs the loop. -/
@[irreducible] def hashBlocks (s : State) : State :=
  (List.range (padlen (msgLength s) / 64)).foldl hashBlock (padEffect (initEffect s))

theorem hashEffect_eq (s : State) :
    hashEffect s = (hashBlocks s).setDig (bufferOf 40 (digest (hashBlocks s).h)) := by
  unfold hashBlocks
  rfl

theorem hashBlocks_same (s : State) : SameOutsideLoop (padEffect (initEffect s)) (hashBlocks s) := by
  unfold hashBlocks
  exact foldl_hashBlock_same _ _

/-- Two states that agree in every field no completion writes. -/
structure SameOperands (s t : State) : Prop where
  msg : t.msg = s.msg
  msglen : t.msglen = s.msglen
  blksel : t.blksel = s.blksel
  msgptr : t.msgptr = s.msgptr
  padptr : t.padptr = s.padptr
  ie : t.ie = s.ie
  err : t.err = s.err
  drop : t.drop = s.drop
  errcode : t.errcode = s.errcode
  msgCap : t.msgCap = s.msgCap
  input : t.input = s.input
  readData : t.readData = s.readData

theorem hash_keeps {s t : State} (h : SameOutsideLoop (padEffect (initEffect s)) t) (d : Vector Byte 40) :
    SameOperands s (t.setDig d) := by
  rw [padEffect_eq, initEffect_eq] at h
  exact ⟨h.msg, h.msglen, h.blksel, h.msgptr, h.padptr, h.ie, h.err, h.drop, h.errcode, h.msgCap, h.input, h.readData⟩

/-- What the completion of any command leaves alone. -/
theorem effect_keeps (i : Instr) (s : State) : SameOperands s (effectOf i s) := by
  cases i with
  | init => constructor <;> rfl
  | pad =>
    obtain ⟨m, l, n, d, e⟩ := padEffect_shape s
    rw [effectOf_pad, e]
    constructor <;> rfl
  | split =>
    obtain ⟨b, d, e⟩ := splitEffect_shape s
    rw [effectOf_split, e]
    constructor <;> rfl
  | sched =>
    obtain ⟨w, e⟩ := schedEffect_shape s
    rw [effectOf_sched, e]
    constructor <;> rfl
  | compress =>
    obtain ⟨f, g, e⟩ := compressEffect_shape s
    rw [effectOf_compress, e]
    constructor <;> rfl
  | format =>
    obtain ⟨b, e⟩ := formatEffect_shape s
    rw [effectOf_format, e]
    constructor <;> rfl
  | hash =>
    rw [effectOf_hash, hashEffect_eq]
    exact hash_keeps (hashBlocks_same s) _

end Sys2Proof.Machine
end

