-- ==== Sys2Proof/Laws/PerInstr.lean ====
section
/-! SUPPORT. What is said of every command as syntax, one lemma per command: the fields of its word are RSV = 0 and its
opcode, a legal word names it back, and its opcode is none of the reserved ones (R57, R59, R60). -/

namespace Sys2Proof.Laws.CommandFields

/-- The statement of the family for one command. -/
def Statement (i : Instr) : Prop :=
  fieldsOf (encode i) = ⟨0, opcodeOf i⟩ ∧ (fieldsOf (encode i)).wellFormed = true ∧ commandOf (opcodeOf i) = some i ∧
    i.wellFormed = true

theorem init : Statement .init := by unfold Statement; decide
theorem pad : Statement .pad := by unfold Statement; decide
theorem split : Statement .split := by unfold Statement; decide
theorem sched : Statement .sched := by unfold Statement; decide
theorem compress : Statement .compress := by unfold Statement; decide
theorem format : Statement .format := by unfold Statement; decide
theorem hash : Statement .hash := by unfold Statement; decide

end Sys2Proof.Laws.CommandFields
end

