-- ==== Sys2Proof/Laws/Step.lean ====
section
/-! SUPPORT. What a step can do, said once: the turn each input gives, and the inversion of a step that answers a next
state. Invariants and frames are case analyses over `step_cases`. -/

namespace Sys2Proof.Machine

theorem nextTurn_read {s : State} {a : Word} {q : List Input} (h : s.input = .read a :: q) :
    nextTurn s = .quiet (hostRead a (s.withInput q)) := by
  simp only [nextTurn, h]

theorem nextTurn_write {s : State} {a v : Word} {q : List Input} (h : s.input = .write a v :: q) :
    nextTurn s = hostWrite a v (s.withInput q) := by
  simp only [nextTurn, h]

theorem nextTurn_complete {s : State} {q : List Input} (h : s.input = .complete :: q) :
    nextTurn s = coreTurn (s.withInput q) := by
  simp only [nextTurn, h]

theorem nextTurn_reset {s : State} {q : List Input} (h : s.input = .reset :: q) :
    nextTurn s = .quiet (resetInput (s.withInput q)) := by
  simp only [nextTurn, h]

theorem nextTurn_silent {s : State} (h : s.input = []) : nextTurn s = coreTurn s := by
  simp only [nextTurn, h]

/-- Everything the Core's turn can come to. -/
theorem coreTurn_cases (s : State) :
    (s.pend = 0 ∧ coreTurn s = .quiet s) ∨ (∃ i, s.pend = opcodeOf i ∧ coreTurn s = .command i s) ∨
      (s.pend ≠ 0 ∧ commandOf s.pend = none ∧ coreTurn s = .stuck .reservedPend) := by
  unfold coreTurn
  by_cases hp : s.pend = 0
  · exact .inl ⟨hp, if_pos hp⟩
  · rw [if_neg hp]
    cases hc : commandOf s.pend with
    | none => exact .inr (.inr ⟨hp, rfl, rfl⟩)
    | some i => exact .inr (.inl ⟨i, opcodeOf_of_commandOf hc, rfl⟩)

/-- The Core's turn, run: an idle block keeps its state, a command in flight completes. -/
theorem step_of_coreTurn {s u t : State} (hu : nextTurn s = coreTurn u) (h : step s = .next t) :
    (u.pend = 0 ∧ t = u) ∨ ∃ i, u.pend = opcodeOf i ∧ t = (effectOf i u).finish := by
  unfold step at h
  rw [hu] at h
  rcases coreTurn_cases u with ⟨hp, hc⟩ | ⟨i, hp, hc⟩ | ⟨_, _, hc⟩ <;> rw [hc] at h
  · exact .inl ⟨hp, (Host.Outcome.next.inj h).symm⟩
  · have h' := (exec_in_flight hp).symm.trans h
    exact .inr ⟨i, hp, (Host.Outcome.next.inj h').symm⟩
  · cases h

/-- Everything a step that answers a next state can have done: `u` is the state with the input it takes removed. -/
theorem step_cases {s t : State} (h : step s = .next t) :
    (∃ u, (u = s ∧ s.input = [] ∨ ∃ q, s.input = .complete :: q ∧ u = s.withInput q) ∧
      (u.pend = 0 ∧ t = u ∨ ∃ i, u.pend = opcodeOf i ∧ t = (effectOf i u).finish)) ∨
    (∃ a q, s.input = .read a :: q ∧ t = hostRead a (s.withInput q)) ∨
    (∃ a v q, s.input = .write a v :: q ∧ hostWrite a v (s.withInput q) = .quiet t) ∨
    (∃ a v q i, s.input = .write a v :: q ∧ hostWrite a v (s.withInput q) = .command i (s.withInput q) ∧
      exec i (s.withInput q) = .next t) ∨
    (∃ q, s.input = .reset :: q ∧ t = resetInput (s.withInput q)) := by
  cases hi : s.input with
  | nil => exact .inl ⟨s, .inl ⟨rfl, rfl⟩, step_of_coreTurn (nextTurn_silent hi) h⟩
  | cons x q =>
    cases x with
    | complete => exact .inl ⟨_, .inr ⟨q, rfl, rfl⟩, step_of_coreTurn (nextTurn_complete hi) h⟩
    | reset =>
      unfold step at h
      rw [nextTurn_reset hi] at h
      exact .inr (.inr (.inr (.inr ⟨q, rfl, (Host.Outcome.next.inj h).symm⟩)))
    | read a =>
      unfold step at h
      rw [nextTurn_read hi] at h
      exact .inr (.inl ⟨a, q, rfl, (Host.Outcome.next.inj h).symm⟩)
    | write a v =>
      unfold step at h
      rw [nextTurn_write hi] at h
      cases hw : hostWrite a v (s.withInput q) with
      | quiet u =>
        rw [hw] at h
        exact .inr (.inr (.inl ⟨a, v, q, rfl, by rw [hw, Host.Outcome.next.inj h]⟩))
      | stuck f =>
        rw [hw] at h
        cases h
      | command i u =>
        rw [hw] at h
        obtain rfl : u = s.withInput q := by
          by_cases hb : (s.withInput q).busy = true
          · unfold hostWrite at hw
            split at hw
            · cases hw
            · split at hw <;> first | cases hw | simp_all
          · rw [hostWrite_idle a v (by simpa using hb)] at hw
            unfold idleWrite at hw
            split at hw <;> first | cases hw | skip
            unfold commandWrite at hw
            split at hw
            · cases hw
            · exact (Turn.command.inj hw).2.symm
        exact .inr (.inr (.inr (.inl ⟨a, v, q, i, rfl, hw, h⟩)))

end Sys2Proof.Machine
end

