-- ==== Sys2Proof/Tests/Slice0.lean ====
section
/-! SUPPORT. Tests of the model against the worked vectors of spec/95_test_vectors.md (V1 to V2.9, with MSG_CAP = 1024), the
smoke test of every well-formedness check, and a witness for the hypotheses of every statement. -/

namespace Sys2Proof.Tests

open Sys2Proof.Machine Sys2Proof.Spec

/-! ### Helpers -/

/-- The block after reset with MSG_CAP = 1024 and the given turns to come. -/
def fresh (q : List Input) : State := { State.resetWith 1024 with input := q }

/-- Buffer contents from index 0. -/
def bytesAt0 (m : List Byte) : Memory := cellsAt 0 m

/-- The block with message `m` loaded and command `op` in flight. -/
def running (op : BitVec 4) (m : List Byte) : State :=
  { fresh [] with msg := bytesAt0 m, msglen := BitVec.ofNat 64 m.length, pend := op }

def holds (o : Host.Outcome State Fault Refusal) (p : State → Bool) : Bool :=
  match o with
  | .next s => p s
  | _ => false

/-- `k` steps. -/
def runs (k : Nat) (s : State) (p : State → Bool) : Bool :=
  match k with
  | 0 => p s
  | k + 1 => holds (step s) fun t => runs k t p

def abc : List Byte := [0x61, 0x62, 0x63]

/-- The one block of padded b"abc", transcribed from V2.2.2. -/
def abcBlock : List Byte := [0x61, 0x62, 0x63, 0x80] ++ List.replicate 59 0x00 ++ [0x18]

def msgCapLegal (n : Nat) : Bool := decide (Config.MsgCapLegal n)

/-! ### Well-formedness: every check refuses an ill-formed term (R57, R60, R7) -/

theorem test_wf_rsv_nonzero : (CmdWord.mk 1 1).rsvZero = false ∧ (CmdWord.mk 1 1).wellFormed = false := by decide
theorem test_wf_op_zero : (CmdWord.mk 0 0).opDefined = false ∧ (CmdWord.mk 0 0).wellFormed = false := by decide
theorem test_wf_op_eight : (CmdWord.mk 0 8).opDefined = false ∧ (CmdWord.mk 0 8).wellFormed = false := by decide
theorem test_wf_op_fifteen : (CmdWord.mk 0 15).wellFormed = false := by decide
theorem test_wf_legal : (CmdWord.mk 0 1).wellFormed = true ∧ (CmdWord.mk 0 7).wellFormed = true := by decide
theorem test_wf_cap_not_multiple : msgCapLegal 1023 = false := by decide
theorem test_wf_cap_too_small : msgCapLegal 0 = false := by decide
theorem test_wf_cap_too_large : msgCapLegal (2 ^ 32 - 124) = false := by decide
theorem test_wf_cap_bounds : msgCapLegal 4 = true ∧ msgCapLegal (2 ^ 32 - 128) = true := by decide

/-! ### Decoding: words written out from R57 (RSV in bits 31:4, OP in bits 3:0) and R59 -/

theorem test_decode_init : decode (0x0000000#28 ++ 0b0001#4) = .instr .init := by decide
theorem test_decode_pad : decode (0x0000000#28 ++ 0b0010#4) = .instr .pad := by decide
theorem test_decode_split : decode (0x0000000#28 ++ 0b0011#4) = .instr .split := by decide
theorem test_decode_sched : decode (0x0000000#28 ++ 0b0100#4) = .instr .sched := by decide
theorem test_decode_compress : decode (0x0000000#28 ++ 0b0101#4) = .instr .compress := by decide
theorem test_decode_format : decode (0x0000000#28 ++ 0b0110#4) = .instr .format := by decide
theorem test_decode_hash : decode (0x0000000#28 ++ 0b0111#4) = .instr .hash := by decide

/-- V2.9.3: illegal words; 0x00000011 has OP = 1 and is not INIT. -/
theorem test_decode_illegal :
    decode 0x00000000 = .illegal .reservedOpcode ∧ decode 0x00000008 = .illegal .reservedOpcode ∧
    decode 0x0000000F = .illegal .reservedOpcode ∧ decode 0x00000011 = .illegal .reservedBits ∧
    decode 0x80000001 = .illegal .reservedBits ∧ decode 0xFFFFFFFF = .illegal .reservedBits := by decide

/-- The decoder on a table row, and on a row with a bit set above the word. -/
theorem test_decode_table_word :
    decodeTableWord 32 7 = some .hash ∧ decodeTableWord 32 0 = none ∧ decodeTableWord 64 (2 ^ 32 + 1) = none := by decide

/-! ### The primitives -/

/-- V2.1.4 to V2.1.7, V2.1.10. -/
theorem test_rotl32 :
    rotl32 0x80000000 1 = 0x00000001 ∧ rotl32 0x00000001 31 = 0x80000000 ∧ rotl32 0x67452301 5 = 0xE8A4602C ∧
    rotl32 0xEFCDAB89 30 = 0x7BF36AE2 ∧ rotl32 0x00000003 30 = 0xC0000000 := by decide

/-- V2.5.2 to V2.5.7: both sides of every band edge. -/
theorem test_mix_bands :
    mix 19 0xEFCDAB89 0x98BADCFE 0x10325476 = 0x98BADCFE ∧ mix 20 0xEFCDAB89 0x98BADCFE 0x10325476 = 0x67452301 ∧
    mix 39 0xEFCDAB89 0x98BADCFE 0x10325476 = 0x67452301 ∧ mix 40 0xEFCDAB89 0x98BADCFE 0x10325476 = 0x98BADCFE ∧
    mix 59 0xEFCDAB89 0x98BADCFE 0x10325476 = 0x98BADCFE ∧ mix 60 0xEFCDAB89 0x98BADCFE 0x10325476 = 0x67452301 := by
  decide

/-- V2.5.9: round 0 of b"abc". -/
theorem test_round_zero :
    compressRound 0 0x61626380 ⟨0x67452301, 0xEFCDAB89, 0x98BADCFE, 0x10325476, 0xC3D2E1F0⟩ =
      ⟨0x0116FC33, 0x67452301, 0x7BF36AE2, 0x98BADCFE, 0x10325476⟩ := by decide

/-- §1.2: PADLEN and z(n) at the block boundaries. -/
theorem test_padlen :
    (padlen 0, zeroCount 0) = (64, 55) ∧ (padlen 55, zeroCount 55) = (64, 0) ∧ (padlen 56, zeroCount 56) = (128, 63) ∧
    (padlen 119, zeroCount 119) = (128, 0) ∧ (padlen 120, zeroCount 120) = (192, 63) ∧
    (padlen 1024, zeroCount 1024) = (1088, 55) := by decide

/-! ### The commands -/

/-- V2.7.1: INIT sets H and leaves A..E. -/
theorem test_init :
    holds (exec .init { running 1 [] with h := ⟨1, 2, 3, 4, 5⟩, v := ⟨6, 7, 8, 9, 10⟩ }) (fun t =>
      decide (t.h = ⟨0x67452301, 0xEFCDAB89, 0x98BADCFE, 0x10325476, 0xC3D2E1F0⟩ ∧ t.v = ⟨6, 7, 8, 9, 10⟩ ∧
        statusWord t = 0x00000002)) = true := by decide +kernel

/-- V2.2.2: PAD of b"abc". -/
theorem test_pad_abc :
    holds (exec .pad (running 2 abc)) (fun t =>
      decide (t.pad = bytesAt0 abcBlock ∧ t.padlen = 64 ∧ t.nblk = 1 ∧ statusWord t = 0x00000002)) = true := by
  decide +kernel

/-- V2.2.9, V2.2.10: E_LENOVF before E_LENCAP. -/
theorem test_pad_rejected :
    holds (exec .pad { fresh [] with msglen := 0x2000000000000000 }) (fun t => statusWord t == 0x00000204) = true ∧
    holds (exec .pad { fresh [] with msglen := 0x1FFFFFFFFFFFFFFF }) (fun t => statusWord t == 0x00000304) = true := by
  decide +kernel

/-- V2.3.1: SPLIT of the one block of b"abc". -/
theorem test_split_abc :
    holds (exec .split { running 3 [] with pad := bytesAt0 abcBlock, padlen := 64, nblk := 1 }) (fun t =>
      decide (regValue t (.blkw 0) = 0x61626380 ∧ regValue t (.blkw 1) = 0 ∧ regValue t (.blkw 15) = 0x00000018)) =
        true := by decide +kernel

/-- V2.3.4, V2.3.6: SPLIT out of range. -/
theorem test_split_rejected :
    holds (exec .split { fresh [] with nblk := 2, blksel := 2 }) (fun t => statusWord t == 0x00000404) = true ∧
    holds (exec .split (fresh [])) (fun t => statusWord t == 0x00000404) = true := by decide +kernel

/-- V2.4.4: the schedule of the block of b"abc". -/
theorem test_sched_abc :
    holds (exec .sched { running 4 [] with blk := bufferOf 64 abcBlock }) (fun t =>
      decide (t.w.getD 0 0 = 0x61626380 ∧ t.w.getD 16 0 = 0xC2C4C700 ∧ t.w.getD 19 0 = 0x85898E01 ∧
        t.w.getD 79 0 = 0x822E0879)) = true := by decide +kernel

/-- V2.4.2: the all-ones block, whatever W held before. -/
theorem test_sched_ones :
    holds (exec .sched { running 4 [] with blk := Vector.replicate 64 0xFF, w := Vector.replicate 80 0x12345678 }) (fun t =>
      decide (t.w.getD 15 0 = 0xFFFFFFFF ∧ t.w.getD 16 0 = 0 ∧ t.w.getD 19 0 = 0xFFFFFFFF ∧ t.w.getD 79 0 = 0xFFFFFFFF)) =
        true := by decide +kernel

/-- V2.5: COMPRESS of the schedule of b"abc" from IV, with the feed-forward that wraps in H4. -/
theorem test_compress_abc :
    holds (exec .compress { running 5 [] with w := schedule (bufferOf 64 abcBlock) (Vector.replicate 80 0) }) (fun t =>
      decide (t.h = ⟨0xA9993E36, 0x4706816A, 0xBA3E2571, 0x7850C26C, 0x9CD0D89D⟩ ∧
        t.v = ⟨0x42541B35, 0x5738D5E1, 0x21834873, 0x681E6DF6, 0xD8FDF6AD⟩)) = true := by decide +kernel

/-- V2.6.4: FORMAT. -/
theorem test_format :
    holds (exec .format { running 6 [] with h := ⟨0x0123ABCD, 0x456789EF, 0x0000000A, 0xA0000000, 0x9F9F9F9F⟩ }) (fun t =>
      decide (regValue t (.digw 0) = 0x30313233 ∧ regValue t (.digw 1) = 0x61626364 ∧ regValue t (.digw 3) = 0x38396566 ∧
        regValue t (.digw 5) = 0x30303061 ∧ regValue t (.digw 9) = 0x39663966)) = true := by decide +kernel

/-- V2.8.3: HASH of b"abc", first and last word of H, of W and of the digest. -/
theorem test_hash_abc :
    holds (exec .hash (running 7 abc)) (fun t =>
      decide (t.h = ⟨0xA9993E36, 0x4706816A, 0xBA3E2571, 0x7850C26C, 0x9CD0D89D⟩ ∧ t.w.getD 79 0 = 0x822E0879 ∧
        regValue t (.digw 9) = 0x64383964 ∧ t.nblk = 1)) = true := by decide +kernel

/-- V2.9.13: HASH with a length that has both faults reports E_LENOVF; a STATUS write of all ones clears everything. -/
theorem test_hash_rejected :
    runs 4 (fresh [.write 0x010 3, .write 0x014 0x20000000, .write 0x00C 7, .write 0x008 0xFFFFFFFF]) (fun t =>
      statusWord t == 0) = true ∧
    runs 3 (fresh [.write 0x010 3, .write 0x014 0x20000000, .write 0x00C 7]) (fun t => statusWord t == 0x00000204) =
      true := by decide +kernel

/-! ### The register window (V2.9) -/

/-- V2.9.1: ID, address bits 1:0 ignored. -/
theorem test_bus_id : runs 1 (fresh [.read 0x003]) (fun t => decide (t.readData = some 0x53484131)) = true := by
  decide +kernel

/-- V2.9.2: hardwired bits. -/
theorem test_bus_hardwired :
    runs 3 (fresh [.write 0x004 0xFFFFFFFF, .write 0x024 0x00000007, .write 0x02C 0xFFFFFFFF]) (fun t =>
      decide (regValue t .ctrl = 1 ∧ regValue t .msgptr = 4 ∧ regValue t .padptr = 0xFFFFFFFC)) = true := by decide +kernel

/-- V2.9.4: a command is dropped while ERR = 1, and what each STATUS write clears. -/
theorem test_bus_error :
    runs 2 (fresh [.write 0x00C 0, .write 0x00C 7]) (fun t => statusWord t == 0x0000010C) = true ∧
    runs 4 (fresh [.write 0x00C 0, .write 0x00C 7, .write 0x008 2, .write 0x008 4]) (fun t => statusWord t == 0x00000008) =
      true := by decide +kernel

/-- V2.9.6: writes while a command runs. -/
theorem test_bus_busy :
    runs 4 (fresh [.write 0x00C 7, .write 0x010 5, .write 0x004 1, .write 0x008 1]) (fun t =>
      decide (statusWord t = 0x00000009 ∧ t.msglen = 0 ∧ t.ie = true)) = true := by decide +kernel

/-- V2.9.7, V2.9.8: the end of MSG, and the wrap of MSGPTR. -/
theorem test_bus_msgdata_end :
    runs 3 (fresh [.write 0x024 1020, .write 0x028 0x11223344, .write 0x028 0x55667788]) (fun t =>
      decide (t.msg = [(1020, 0x11), (1021, 0x22), (1022, 0x33), (1023, 0x44)] ∧ t.drop = true ∧ t.msgptr = 1028)) = true ∧
    runs 2 (fresh [.write 0x024 0xFFFFFFFC, .write 0x028 1]) (fun t => decide (t.msgptr = 0 ∧ statusWord t = 8)) = true := by
  decide +kernel

/-- V2.9.11: PADDATA at and past PADLEN. -/
theorem test_bus_paddata_end :
    runs 1 { fresh [.read 0x030] with pad := bytesAt0 abcBlock, padlen := 64, nblk := 1, padptr := 60 } (fun t =>
      decide (t.readData = some 0x00000018 ∧ t.padptr = 64)) = true ∧
    runs 1 { fresh [.read 0x030] with pad := bytesAt0 abcBlock, padlen := 64, nblk := 1, padptr := 64 } (fun t =>
      decide (t.readData = some 0 ∧ t.padptr = 68)) = true := by decide +kernel

/-- V2.9.12: the level of irq. -/
theorem test_bus_irq :
    runs 3 (fresh [.write 0x004 1, .write 0x00C 1, .complete]) irq = true ∧
    runs 4 (fresh [.write 0x004 1, .write 0x00C 1, .complete, .write 0x008 2]) irq = false ∧
    runs 5 (fresh [.write 0x004 1, .write 0x00C 1, .complete, .write 0x008 2, .write 0x00C 0]) irq = true := by
  decide +kernel

/-- A placed command word is what the next step presents. -/
theorem test_with_fetch_word :
    holds (step (State.reset.withFetchWord 32 4)) (fun t => decide (t.pend = 4 ∧ t.input = [])) = true := by decide +kernel

/-! ### Witnesses: for each statement with hypotheses, a state and operands that meet all of them -/

/-- A block that met a rejection. -/
def failed (q : List Input) : State := { fresh q with err := true, errcode := 1 }

/-- A block with `op` in flight and the given turns to come. -/
def busyWith (op : BitVec 4) (q : List Input) : State := { fresh q with pend := op }

/-- A block that has padded b"abc". -/
def padded (q : List Input) : State := { fresh q with pad := bytesAt0 abcBlock, padlen := 64, nblk := 1 }

theorem seven_ne_zero : (7 : BitVec 4) ≠ 0 := by decide

theorem invariant_of_pend (op : BitVec 4) (q : List Input) (h : op.toNat ≤ 7) (h3 : op ≠ 3) :
    Machine.Invariant (busyWith op q) where
  capLegal := show Config.MsgCapLegal 1024 by decide
  msgWf := List.Pairwise.nil
  padWf := List.Pairwise.nil
  msgBound := fun c hc => absurd hc (List.not_mem_nil)
  padBound := fun c hc => absurd hc (List.not_mem_nil)
  padlenBlocks := rfl
  padlenBound := Nat.zero_le _
  nblkPadlen := rfl
  padWritten := fun i hi => absurd hi (Nat.not_lt_zero i)
  msgptrAligned := rfl
  padptrAligned := rfl
  errcodeClear := fun _ => rfl
  errcodeRange := fun h => absurd (show false = true from h) (by decide)
  pendLegal := h
  busyClear := fun _ => ⟨rfl, rfl⟩
  lengthHeld := fun _ => Nat.zero_le _
  rangeHeld := fun h => absurd h h3

theorem invariant_of_split : Machine.Invariant { padded [] with pend := 3 } where
  capLegal := by decide
  msgWf := List.Pairwise.nil
  padWf := cellsAt_wf _ _
  msgBound := fun c hc => absurd hc (List.not_mem_nil)
  padBound := fun c hc => Nat.lt_of_lt_of_le (cellsAt_index _ _ c hc).2 (by decide)
  padlenBlocks := rfl
  padlenBound := by decide
  nblkPadlen := rfl
  padWritten := by decide
  msgptrAligned := rfl
  padptrAligned := rfl
  errcodeClear := fun _ => rfl
  errcodeRange := fun h => absurd h (by decide)
  pendLegal := by decide
  busyClear := fun _ => ⟨rfl, rfl⟩
  lengthHeld := fun h => absurd h (by decide)
  rangeHeld := fun _ => by decide

theorem messageIs_abc (op : BitVec 4) : MessageIs (running op abc) abc := by
  refine ⟨rfl, ?_⟩
  show ∀ i, i < 3 → memGet (bytesAt0 abc) i = abc[i]?
  decide

theorem witness_StepRunsPresentedCommand (i : Instr) :
    ∃ (s : State) (a v : Word) (q : List Input), s.input = .write a v :: q ∧ off a = 0x00C ∧ s.pend = 0 ∧ decode v =
      .instr i :=
  ⟨fresh [.write 0x00C (encode i)], 0x00C, encode i, [], rfl, rfl, rfl, by cases i <;> rfl⟩

/-- Both ways the Core's turn comes, for every command and for an idle block. -/
theorem witness_StepCompletesCommandInFlight (i : Instr) :
    (∃ (s : State), CoreNext s [] ∧ s.input = [] ∧ s.pend = opcode i) ∧ (∃ (s : State) (q : List Input), CoreNext s q ∧
      s.input ≠ [] ∧ s.pend = opcode i) ∧
    ∃ (s : State) (q : List Input), CoreNext s q ∧ s.pend = 0 :=
  ⟨⟨busyWith (opcode i) [], .inl ⟨rfl, rfl⟩, rfl, rfl⟩,
   ⟨busyWith (opcode i) [.complete], [], .inr rfl, by simp [busyWith, fresh], rfl⟩, ⟨fresh [], [], .inl ⟨rfl, rfl⟩,
     rfl⟩⟩

theorem witness_DecodeMatchesWholeWord (i : Instr) : i.wellFormed = true := by cases i <;> rfl

/-- The illegal words next to the legal ones: 0, 8, and 1 with a reserved bit. -/
theorem witness_IllegalWordRejected (v : Word) (hv : v = 0 ∨ v = 8 ∨ v = 0x11) :
    ∃ (s : State) (a : Word) (q : List Input), s.input = .write a v :: q ∧ off a = 0x00C ∧ s.pend = 0 ∧ s.err = false ∧
      ∃ r, decode v = .illegal r := by
  refine ⟨fresh [.write 0x00C v], 0x00C, [], rfl, rfl, rfl, rfl, ?_⟩
  rcases hv with rfl | rfl | rfl
  · exact ⟨.reservedOpcode, by decide⟩
  · exact ⟨.reservedOpcode, by decide⟩
  · exact ⟨.reservedBits, by decide⟩

theorem witness_CommandWriteTakesFirstOutcome (v : Word) :
    ∃ (s : State) (a : Word) (q : List Input), s.input = .write a v :: q ∧ off a = 0x00C := ⟨fresh [.write 0x00C v],
      0x00C, [], rfl, rfl⟩

theorem witness_RejectionChangesOnlyStatus :
    ∃ (s t : State) (a v : Word) (q : List Input), s.input = .write a v :: q ∧ off a = 0x00C ∧ s.err = false ∧ step s =
      .next t ∧ t.err = true :=
  ⟨fresh [.write 0x00C 0], _, 0x00C, 0, [], rfl, rfl, rfl, rfl, rfl⟩

/-- A CMD write, a write next to it in the map (MSGLEN_LO), and one to a reserved offset. -/
theorem witness_ErrorHoldsBackCommands :
    (∃ (s : State) (a v : Word) (q : List Input), s.input = .write a v :: q ∧ s.pend = 0 ∧ s.err = true ∧ off a =
      0x00C) ∧
    (∃ (s : State) (a v : Word) (q : List Input), s.input = .write a v :: q ∧ s.pend = 0 ∧ s.err = true ∧ off a ≠ 0x00C
      ∧ off a ≠ 0x008 ∧ off a = 0x010) ∧
    ∃ (s : State) (a v : Word) (q : List Input), s.input = .write a v :: q ∧ s.pend = 0 ∧ s.err = true ∧ off a ≠ 0x00C
      ∧ off a ≠ 0x008 ∧ off a = 0xFFC :=
  ⟨⟨failed [.write 0x00C 7], 0x00C, 7, [], rfl, rfl, rfl, rfl⟩,
   ⟨failed [.write 0x010 7], 0x010, 7, [], rfl, rfl, rfl, by decide, by decide, rfl⟩,
   ⟨failed [.write 0xFFC 7], 0xFFC, 7, [], rfl, rfl, rfl, by decide, by decide, rfl⟩⟩

theorem witness_StatusWriteReturnsFromError :
    (∃ (s : State) (q : List Input), s.input = .reset :: q ∧ s.err = true) ∧
    ∃ (s : State) (a v : Word) (q : List Input) (a' v' : Word) (q' : List Input), s.input = .write a v :: q ∧ off a =
      0x008 ∧ v.getLsbD 2 = true ∧ q = .write a' v' :: q' ∧
      off a' = 0x00C ∧ s.pend = 0 ∧ s.err = true :=
  ⟨⟨failed [.reset], [], rfl, rfl⟩,
   ⟨failed [.write 0x008 4, .write 0x00C 1], 0x008, 4, _, 0x00C, 1, [], rfl, rfl, by decide, rfl, rfl, rfl, rfl⟩⟩

/-- Idle and in flight: what the acceptance clause and the completion clause of a command need. -/
theorem idle_and_in_flight (op : BitVec 4) : (∃ s : State, s.pend = 0 ∧ s.err = false) ∧ ∃ s : State, s.pend = op :=
  ⟨⟨fresh [], rfl, rfl⟩, ⟨busyWith op [], rfl⟩⟩

theorem witness_InitSetsHashState : (∃ s : State, s.pend = 0 ∧ s.err = false) ∧ ∃ s : State, s.pend = 1 :=
  idle_and_in_flight 1
theorem witness_SchedExpandsBlock : (∃ s : State, s.pend = 0 ∧ s.err = false) ∧ ∃ s : State, s.pend = 4 :=
  idle_and_in_flight 4
theorem witness_CompressFoldsSchedule : (∃ s : State, s.pend = 0 ∧ s.err = false) ∧ ∃ s : State, s.pend = 5 :=
  idle_and_in_flight 5
theorem witness_FormatRendersDigest : (∃ s : State, s.pend = 0 ∧ s.err = false) ∧ ∃ s : State, s.pend = 6 :=
  idle_and_in_flight 6

/-- For PadWritesPaddedMessage: the bounds of the length (0 and MSG_CAP), a written byte, a byte beyond N, a whole
  message. -/
theorem witness_PadWritesPaddedMessage :
    (∃ s : State, s.pend = 2 ∧ Config.MsgCapLegal s.msgCap ∧ s.msglen.toNat ≤ s.msgCap ∧ s.msglen.toNat = s.msgCap) ∧
    (∃ s : State, s.pend = 2 ∧ Config.MsgCapLegal s.msgCap ∧ s.msglen.toNat ≤ s.msgCap ∧ MessageIs s abc ∧
      padlen s.msglen.toNat ≤ 64 ∧ 2 < s.msglen.toNat ∧ memGet s.msg 2 = some 0x63) :=
  ⟨⟨{ busyWith 2 [] with msglen := 1024 }, rfl, by decide, by decide, rfl⟩,
   ⟨running 2 abc, rfl, by decide, by decide, messageIs_abc 2, by decide, by decide, by decide⟩⟩

theorem witness_PadTailIsFixed : ∃ s t : State, s.pend = 2 ∧ exec .pad s = .next t ∧
    s.msglen.toNat < 4 ∧ 4 < padlen s.msglen.toNat - 8 := ⟨running 2 abc, _, rfl, rfl, by decide, by decide⟩

/-- For SplitCopiesSelectedBlock: the first and the last byte of a written block. -/
theorem witness_SplitCopiesSelectedBlock :
    ∃ s : State, s.pend = 3 ∧ memGet s.pad (64 * s.blksel.toNat + 0) = some 0x61 ∧
      memGet s.pad (64 * s.blksel.toNat + 63) = some 0x18 ∧
      ∀ k, k < 64 → (memGet s.pad (64 * s.blksel.toNat + k)).isSome :=
  ⟨{ padded [] with pend := 3 }, rfl, by decide, by decide, by decide⟩

theorem witness_HashAcceptsAndCompletes : ∃ s : State, s.pend = 7 ∧ padlen s.msglen.toNat ≤ 64 :=
  ⟨running 7 abc, rfl, by decide⟩

theorem witness_HashComputesSha1 :
    ∃ (s : State) (m : List Byte), s.pend = 7 ∧ Config.MsgCapLegal s.msgCap ∧ s.msglen.toNat ≤ s.msgCap ∧ MessageIs s m
      ∧ m = abc :=
  ⟨running 7 abc, abc, rfl, by decide, by decide, messageIs_abc 7, rfl⟩

/-- For HashEqualsStagePath: an idle block whose message has been written, one of three bytes and one of MSG_CAP. -/
theorem witness_HashEqualsStagePath :
    (∃ s : State, s.pend = 0 ∧ s.err = false ∧ Config.MsgCapLegal s.msgCap ∧ s.msglen.toNat ≤ s.msgCap ∧ MessageWritten s ∧
      s.msglen = 3) ∧
    ∃ s : State, s.pend = 0 ∧ s.err = false ∧ Config.MsgCapLegal s.msgCap ∧ s.msglen.toNat ≤ s.msgCap ∧ MessageWritten s ∧
      s.msglen.toNat = s.msgCap :=
  ⟨⟨running 0 abc, rfl, rfl, by decide, by decide, show ∀ i, i < 3 → (memGet (bytesAt0 abc) i).isSome by decide, by decide⟩,
   ⟨{ running 0 [1, 2, 3, 4] with msgCap := 4 }, rfl, rfl, by decide, by decide,
    show ∀ i, i < 4 → (memGet (bytesAt0 [1, 2, 3, 4]) i).isSome by decide, by decide⟩⟩

/-- Two states with the same message and different registers. -/
theorem witness_HashDependsOnlyOnMessage :
    ∃ (s s' : State) (m : List Byte), s.pend = 7 ∧ s'.pend = 7 ∧ s.msglen = s'.msglen ∧ MessageIs s m ∧ MessageIs s' m ∧
      s.blksel ≠ s'.blksel ∧ (∃ (t : State), exec .hash s = .next t) ∧ ∃ (t : State), exec .hash s' = .next t :=
  ⟨running 7 abc, { running 7 abc with blksel := 5 }, abc, rfl, rfl, rfl, messageIs_abc 7, messageIs_abc 7, by decide,
   ⟨_, exec_in_flight rfl⟩, ⟨_, exec_in_flight rfl⟩⟩

theorem witness_PadderLoopAgreesWithClosedForm : (55 + 1 + 0) % 64 = 56 ∧ (56 + 1 + 63) % 64 = 56 := by decide

/-- An index of the message, one of the zeros, and the first and last byte of the length field. -/
theorem witness_PaddedMessageByteByByte :
    (2 < abc.length) ∧ (abc.length < 4 ∧ 4 < padlen abc.length - 8) ∧ (abc.length < 55 ∧ 55 < padlen abc.length - 8) ∧
    (0 < 8 ∧ 7 < 8) := by decide

theorem witness_PaddingProperties : ∃ m : List Byte, m.length < 2 ^ 61 := ⟨abc, by decide⟩

theorem witness_BlocksCoverPaddedMessage :
    ∃ (s : State) (p : List Byte) (b : Nat → State), s.nblk.toNat * 64 = s.padlen.toNat ∧ p.length = s.padlen.toNat ∧
      (∀ i, i < p.length → memGet s.pad i = p[i]?) ∧ 0 < s.nblk.toNat ∧
      ∀ j, j < s.nblk.toNat → exec .split { s with blksel := BitVec.ofNat 32 j, pend := 3 } = .next (b j) :=
  ⟨padded [], abcBlock, fun j => (effectOf .split { padded [] with blksel := BitVec.ofNat 32 j, pend := 3 }).finish,
   rfl, rfl, by decide, by decide, fun _ _ => exec_in_flight rfl⟩

/-- The first and the last round of every band are rounds. -/
theorem witness_MixingFunctionsActBitwise : ∀ t ∈ [0, 19, 20, 39, 40, 59, 60, 79], t < 80 ∧ 31 < 32 := by decide
theorem witness_RoundConstantsByBand : ∀ t ∈ [0, 19, 20, 39, 40, 59, 60, 79], t < 80 := by decide
theorem witness_RoundShiftsTheChain : ∀ t ∈ [0, 79], t < 80 := by decide

theorem witness_DigestIsLowercaseHex : ∀ p ∈ [0, 39], p < 40 := by decide

/-- Offsets on both sides of the edges of the map. -/
theorem witness_RegisterMapIsComplete :
    (∀ n ∈ [0x000, 0x030, 0x034, 0x424, 0x428, 0xFFC], n % 4 = 0 ∧ n < 0x1000) ∧ regAt 0x030 = some .paddata ∧
      regAt 0x424 = some (.digw 9) := by decide

theorem witness_StatusLayout : ∀ k ∈ [4, 7, 12, 31], (4 ≤ k ∧ k ≤ 7) ∨ 12 ≤ k := by decide

theorem witness_ArithmeticPrimitives : ∀ n ∈ [1, 31], 1 ≤ n ∧ n ≤ 31 := by decide

/-- Each clause of BusyWritesAreDropped, the dropped writes next to CTRL and STATUS on both sides. -/
theorem witness_BusyWritesAreDropped :
    (∀ a : Word, a = 0x000 ∨ a = 0x00C ∨ a = 0xFFC →
      ∃ (s : State) (v : Word) (q : List Input), s.input = .write a v :: q ∧ s.pend ≠ 0 ∧ off a ≠ 0x004 ∧ off a ≠
        0x008) ∧
    (∃ (s : State) (a v : Word) (q : List Input), s.input = .write a v :: q ∧ s.pend ≠ 0 ∧ off a = 0x004) ∧
    ∃ (s : State) (a v : Word) (q : List Input), s.input = .write a v :: q ∧ s.pend ≠ 0 ∧ off a = 0x008 := by
  refine ⟨fun a ha => ⟨busyWith 7 [.write a 5], 5, [], rfl, seven_ne_zero, ?_⟩,
    ⟨busyWith 7 [.write 0x004 1], 0x004, 1, [], rfl, by decide, rfl⟩,
    ⟨busyWith 7 [.write 0x008 1], 0x008, 1, [], rfl, by decide, rfl⟩⟩
  rcases ha with rfl | rfl | rfl <;> decide

/-- Both clauses at the edges of the result ranges. -/
theorem witness_BusyReadsOfResultsAreDraws :
    (∀ a : Word, a = 0x01C ∨ a = 0x030 ∨ a = 0x040 ∨ a = 0x050 ∨ a = 0x424 →
      ∃ (s : State) (q : List Input), s.input = .read a :: q ∧ s.pend ≠ 0 ∧ resultOffset (off a)) ∧
    (∀ a : Word, a = 0x018 ∨ a = 0x02C ∨ a = 0x034 ∨ a = 0x054 ∨ a = 0x428 →
      ∃ (s : State) (q : List Input), s.input = .read a :: q ∧ s.pend ≠ 0 ∧ ¬ resultOffset (off a)) := by
  refine ⟨fun a ha => ⟨busyWith 7 [.read a], [], rfl, seven_ne_zero, ?_⟩, fun a ha => ⟨busyWith 7 [.read a], [], rfl,
    seven_ne_zero, ?_⟩⟩
  · rcases ha with rfl | rfl | rfl | rfl | rfl <;> (unfold resultOffset; decide)
  · rcases ha with rfl | rfl | rfl | rfl | rfl <;> (unfold resultOffset; decide)

theorem witness_IdleReadsReturnRegisters :
    ∀ a : Word, a = 0x024 ∨ a = 0x02C ∨ a = 0x034 ∨ a = 0xFFC →
      ∃ (s : State) (q : List Input), s.input = .read a :: q ∧ s.pend = 0 ∧ off a ≠ 0x028 ∧ off a ≠ 0x030 := by
  refine fun a ha => ⟨fresh [.read a], [], rfl, rfl, ?_⟩
  rcases ha with rfl | rfl | rfl | rfl <;> decide

theorem witness_IdleWritesSetRegisters :
    ∀ a : Word, a = 0x008 ∨ a = 0x010 ∨ a = 0x024 ∨ a = 0x02C ∨ a = 0xFFC →
      ∃ (s : State) (v : Word) (q : List Input), s.input = .write a v :: q ∧ s.pend = 0 ∧ off a ≠ 0x00C ∧ off a ≠ 0x028
        := by
  refine fun a ha => ⟨fresh [.write a 5], 5, [], rfl, rfl, ?_⟩
  rcases ha with rfl | rfl | rfl | rfl | rfl <;> decide

/-- The port's clauses: the last index in range, the first out of it, each idle and busy, for writes and for reads. -/
theorem witness_MsgDataPort :
    (∃ (s : State) (a v : Word) (q : List Input), s.input = .write a v :: q ∧ s.pend = 0 ∧ off a = 0x028 ∧
      s.msgptr.toNat + 4 = s.msgCap) ∧
    (∃ (s : State) (a v : Word) (q : List Input), s.input = .write a v :: q ∧ s.pend = 0 ∧ off a = 0x028 ∧
      s.msgptr.toNat = s.msgCap) ∧
    (∃ (s : State) (a : Word) (q : List Input), s.input = .read a :: q ∧ s.pend = 0 ∧ off a = 0x028 ∧ s.msgptr.toNat +
      4 = s.msgCap) ∧
    (∃ (s : State) (a : Word) (q : List Input), s.input = .read a :: q ∧ s.pend = 0 ∧ off a = 0x028 ∧ s.msgptr.toNat =
      s.msgCap) ∧
    (∃ (s : State) (a v : Word) (q : List Input), s.input = .write a v :: q ∧ s.pend ≠ 0 ∧ off a = 0x028) ∧
    ∃ (s : State) (a : Word) (q : List Input), s.input = .read a :: q ∧ s.pend ≠ 0 ∧ off a = 0x028 :=
  ⟨⟨{ fresh [.write 0x028 5] with msgptr := 1020 }, 0x028, 5, [], rfl, rfl, rfl, rfl⟩,
   ⟨{ fresh [.write 0x028 5] with msgptr := 1024 }, 0x028, 5, [], rfl, rfl, rfl, rfl⟩,
   ⟨{ fresh [.read 0x028] with msgptr := 1020 }, 0x028, [], rfl, rfl, rfl, rfl⟩,
   ⟨{ fresh [.read 0x028] with msgptr := 1024 }, 0x028, [], rfl, rfl, rfl, rfl⟩,
   ⟨busyWith 7 [.write 0x028 5], 0x028, 5, [], rfl, by decide, rfl⟩, ⟨busyWith 7 [.read 0x028], 0x028, [], rfl, by
     decide, rfl⟩⟩

theorem witness_UnwrittenMessageByteIsDrawn :
    ∃ (s : State) (a : Word) (q : List Input), s.input = .read a :: q ∧ s.pend = 0 ∧ off a = 0x028 ∧
      s.msgptr.toNat + 4 ≤ s.msgCap ∧ memGet s.msg s.msgptr.toNat = none ∧ memGet s.msg (s.msgptr.toNat + 1) = some 1 ∧
      memGet s.msg (s.msgptr.toNat + 2) = some 2 ∧ memGet s.msg (s.msgptr.toNat + 3) = some 3 :=
  ⟨{ fresh [.read 0x028] with msg := [(1, 1), (2, 2), (3, 3)] }, 0x028, [], rfl, rfl, rfl, by decide, by decide, by
    decide,
   by decide, by decide⟩

/-- The port's clauses: the last index in range, the first out of it, and the state the no-straddle clause speaks of. -/
theorem witness_PadDataPort :
    (∃ (s : State) (a : Word) (q : List Input), s.input = .read a :: q ∧ s.pend = 0 ∧ off a = 0x030 ∧ s.padptr.toNat +
      4 = s.padlen.toNat) ∧
    (∃ (s : State) (a : Word) (q : List Input), s.input = .read a :: q ∧ s.pend = 0 ∧ off a = 0x030 ∧ s.padptr.toNat =
      s.padlen.toNat) ∧
    (∃ (s : State), Machine.Invariant s ∧ s.padptr.toNat < s.padlen.toNat) ∧
    (∃ (s : State) (a v : Word) (q : List Input), s.input = .write a v :: q ∧ s.pend = 0 ∧ off a = 0x030) ∧
    ∃ (s : State) (a : Word) (q : List Input), s.input = .read a :: q ∧ s.pend ≠ 0 ∧ off a = 0x030 :=
  ⟨⟨{ padded [.read 0x030] with padptr := 60 }, 0x030, [], rfl, rfl, rfl, rfl⟩,
   ⟨{ padded [.read 0x030] with padptr := 64 }, 0x030, [], rfl, rfl, rfl, rfl⟩,
   ⟨_, invariant_of_split, by decide⟩, ⟨fresh [.write 0x030 5], 0x030, 5, [], rfl, rfl, rfl⟩,
   ⟨busyWith 7 [.read 0x030], 0x030, [], rfl, by decide, rfl⟩⟩

theorem witness_MsgDataReadsBackWrite :
    ∃ (s : State) (a a' a'' v p : Word) (q : List Input),
      s.input = .write a v :: .write a' p :: .read a'' :: q ∧ off a = 0x028 ∧ off a' = 0x024 ∧ off a'' = 0x028 ∧
      s.pend = 0 ∧ s.msgptr.toNat % 4 = 0 ∧ p.toNat / 4 = s.msgptr.toNat / 4 ∧ s.msgptr.toNat + 4 ≤ s.msgCap :=
  ⟨{ fresh [.write 0x028 5, .write 0x024 1020, .read 0x028] with msgptr := 1020 }, 0x028, 0x024, 0x028, 5, 1020, [],
   rfl, rfl, rfl, rfl, rfl, rfl, rfl, by decide⟩

/-- The edges of every reserved range, and of the read-only registers and windows. -/
theorem witness_ReservedAndReadOnlyOffsets :
    (∀ a : Word, a = 0x034 ∨ a = 0x03C ∨ a = 0x054 ∨ a = 0x074 ∨ a = 0x0FC ∨ a = 0x340 ∨ a = 0x428 ∨ a = 0xFFC →
      ∃ (s : State) (q : List Input), s.input = .read a :: q ∧ reservedOffset (off a)) ∧
    (∀ a : Word, a = 0x034 ∨ a = 0xFFC ∨ a = 0x000 ∨ a = 0x01C ∨ a = 0x030 ∨ a = 0x040 ∨ a = 0x424 →
      (∃ (s : State) (v : Word) (q : List Input), s.input = .write a v :: q ∧ s.pend = 0 ∧
        (reservedOffset (off a) ∨ readOnlyOffset (off a))) ∧
      ∃ (s : State) (v : Word) (q : List Input), s.input = .write a v :: q ∧ s.pend ≠ 0 ∧
        (reservedOffset (off a) ∨ readOnlyOffset (off a))) := by
  refine ⟨fun a ha => ⟨fresh [.read a], [], rfl, ?_⟩, fun a ha => ?_⟩
  · rcases ha with rfl | rfl | rfl | rfl | rfl | rfl | rfl | rfl <;> (unfold reservedOffset; decide)
  · have h : reservedOffset (off a) ∨ readOnlyOffset (off a) := by
      rcases ha with rfl | rfl | rfl | rfl | rfl | rfl | rfl <;> (unfold reservedOffset readOnlyOffset; decide)
    exact ⟨⟨fresh [.write a 5], 5, [], rfl, rfl, h⟩, ⟨busyWith 7 [.write a 5], 5, [], rfl, seven_ne_zero, h⟩⟩

theorem witness_AddressBitsOutsideWindowIgnored :
    ∃ a a' : Word, a ≠ a' ∧ a.extractLsb' 2 10 = a'.extractLsb' 2 10 := ⟨0x00C, 0xFFFFF00F, by decide, by decide⟩

theorem witness_ReadSideEffects :
    ∃ (s : State) (a : Word) (q : List Input), s.input = .read a :: q ∧ off a = 0x028 ∧ s.pend = 0 := ⟨fresh [.read
      0x028], 0x028, [], rfl, rfl, rfl⟩

theorem witness_MsglenHalvesIndependent :
    (∃ (s : State) (a v : Word) (q : List Input), s.input = .write a v :: q ∧ s.pend = 0 ∧ off a = 0x010) ∧
    ∃ (s : State) (a v : Word) (q : List Input), s.input = .write a v :: q ∧ s.pend = 0 ∧ off a = 0x014 :=
  ⟨⟨fresh [.write 0x010 5], 0x010, 5, [], rfl, rfl, rfl⟩, ⟨fresh [.write 0x014 5], 0x014, 5, [], rfl, rfl, rfl⟩⟩

/-- The three ways `irq` falls, each from a state in which it is 1. -/
theorem witness_IrqLevel :
    (∃ (s t : State) (a v : Word) (q : List Input), s.input = .write a v :: q ∧ step s = .next t ∧ off a = 0x008 ∧
      v.getLsbD 1 = true ∧
      v.getLsbD 2 = true ∧ irq s = true) ∧
    (∃ (s t : State) (a v : Word) (q : List Input), s.input = .write a v :: q ∧ step s = .next t ∧ off a = 0x004 ∧
      v.getLsbD 0 = false ∧ irq s = true) ∧
    ∃ (s t : State) (a v : Word) (q : List Input), s.input = .write a v :: q ∧ step s = .next t ∧ off a = 0x00C ∧
      s.pend = 0 ∧ t.pend ≠ 0 ∧ irq s = true :=
  ⟨⟨{ fresh [.write 0x008 6] with ie := true, done := true }, _, 0x008, 6, [], rfl, rfl, rfl, by decide, by decide,
    rfl⟩,
   ⟨{ fresh [.write 0x004 0] with ie := true, done := true }, _, 0x004, 0, [], rfl, rfl, rfl, by decide, rfl⟩,
   ⟨{ fresh [.write 0x00C 1] with ie := true, done := true }, _, 0x00C, 1, [], rfl, rfl, rfl, rfl, by decide, rfl⟩⟩

theorem witness_ResetAbandonsCommand : ∃ (s : State) (q : List Input), s.input = .reset :: q ∧ s.pend ≠ 0 :=
  ⟨busyWith 7 [.reset], [], rfl, by decide⟩

/-- Idle, in flight, and with SPLIT in flight: states the invariant holds of, each with a next state. -/
theorem witness_StepKeepsInvariant :
    (∃ (s t : State), Machine.Invariant s ∧ s.pend = 0 ∧ step s = .next t) ∧
    (∃ (s t : State), Machine.Invariant s ∧ s.pend = 4 ∧ step s = .next t) ∧ ∃ (s : State), Machine.Invariant s ∧
      s.pend = 3 :=
  ⟨⟨busyWith 0 [], _, invariant_of_pend 0 [] (by decide) (by decide), rfl, rfl⟩,
   ⟨busyWith 4 [], _, invariant_of_pend 4 [] (by decide) (by decide), rfl, exec_in_flight (i := .sched) rfl⟩,
   ⟨_, invariant_of_split, rfl⟩⟩

theorem witness_StepNeverStops : ∃ (s : State), Machine.Invariant s ∧ s.pend = 7 :=
  ⟨busyWith 7 [], invariant_of_pend 7 [] (by decide) (by decide), rfl⟩

theorem witness_AcceptedCommandCompletes : ∃ (s : State) (q : List Input), Machine.Invariant s ∧ s.pend ≠ 0 ∧ CoreNext
    s q ∧ q ≠ [] :=
  ⟨busyWith 7 [.complete, .read 0], [.read 0], invariant_of_pend 7 _ (by decide) (by decide), by decide, .inr rfl,
   by decide⟩

theorem witness_BusyIsEventuallyCleared : ∃ (s : State), Machine.Invariant s ∧ s.pend ≠ 0 ∧ s.input.length = 2 :=
  ⟨busyWith 7 [.read 0x008, .read 0x008], invariant_of_pend 7 _ (by decide) (by decide),
   by decide, rfl⟩

/-- A step that writes W, one that writes MSG, and one that writes nothing. -/
theorem witness_OnlyNamedWritersChangeState :
    (∃ (s t : State), step s = .next t ∧ (∀ q, s.input ≠ .reset :: q) ∧ s.pend = 4) ∧
    ∃ (s t : State), step s = .next t ∧ (∀ q, s.input ≠ .reset :: q) ∧ t.msg ≠ s.msg :=
  ⟨⟨busyWith 4 [], _, exec_in_flight (i := .sched) rfl, by simp [busyWith, fresh], rfl⟩,
   ⟨fresh [.write 0x028 5], _, rfl, by simp [fresh], by decide⟩⟩

/-- A step for each clause: the register named does move. -/
theorem witness_OnlyNamedWritersChangeControl :
    (∃ s t : State, step s = .next t ∧ (∀ q, s.input ≠ .reset :: q) ∧ t.msglen.toNat % 2 ^ 32 ≠ s.msglen.toNat % 2 ^ 32) ∧
    (∃ s t : State, step s = .next t ∧ (∀ q, s.input ≠ .reset :: q) ∧ t.msglen.toNat / 2 ^ 32 ≠ s.msglen.toNat / 2 ^ 32) ∧
    (∃ s t : State, step s = .next t ∧ (∀ q, s.input ≠ .reset :: q) ∧ t.blksel ≠ s.blksel) ∧
    (∃ s t : State, step s = .next t ∧ (∀ q, s.input ≠ .reset :: q) ∧ t.msgptr ≠ s.msgptr) ∧
    (∃ s t : State, step s = .next t ∧ (∀ q, s.input ≠ .reset :: q) ∧ t.padptr ≠ s.padptr) ∧
    (∃ s t : State, step s = .next t ∧ (∀ q, s.input ≠ .reset :: q) ∧ t.ie ≠ s.ie) ∧
    (∃ s t : State, step s = .next t ∧ (∀ q, s.input ≠ .reset :: q) ∧ s.done = false ∧ t.done = true ∧ s.pend ≠ 0 ∧
      t.pend ≠ s.pend) ∧
    (∃ s t : State, step s = .next t ∧ (∀ q, s.input ≠ .reset :: q) ∧ s.done = true ∧ t.done = false ∧ s.pend = 0 ∧
      t.pend ≠ 0) ∧
    (∃ s t : State, step s = .next t ∧ (∀ q, s.input ≠ .reset :: q) ∧ s.err = false ∧ t.err = true ∧
      t.errcode ≠ s.errcode) ∧
    (∃ s t : State, step s = .next t ∧ (∀ q, s.input ≠ .reset :: q) ∧ s.err = true ∧ t.err = false) ∧
    ∃ s t : State, step s = .next t ∧ (∀ q, s.input ≠ .reset :: q) ∧ t.drop ≠ s.drop :=
  ⟨⟨fresh [.write 0x010 5], _, rfl, by simp [fresh], by decide⟩,
   ⟨fresh [.write 0x014 5], _, rfl, by simp [fresh], by decide⟩,
   ⟨fresh [.write 0x018 5], _, rfl, by simp [fresh], by decide⟩,
   ⟨fresh [.write 0x024 8], _, rfl, by simp [fresh], by decide⟩,
   ⟨fresh [.read 0x030], _, rfl, by simp [fresh], by decide⟩,
   ⟨fresh [.write 0x004 1], _, rfl, by simp [fresh], by decide⟩,
   ⟨busyWith 1 [], _, rfl, by simp [busyWith, fresh], rfl, rfl, by decide, by decide⟩,
   ⟨{ fresh [.write 0x00C 1] with done := true }, _, rfl, by simp [fresh], rfl, rfl, rfl, by decide⟩,
   ⟨fresh [.write 0x00C 8], _, rfl, by simp [fresh], rfl, rfl, by decide⟩,
   ⟨{ fresh [.write 0x008 4] with err := true }, _, rfl, by simp [fresh], rfl, by decide⟩,
   ⟨busyWith 7 [.write 0x018 5], _, rfl, by simp [busyWith, fresh], by decide⟩⟩

theorem witness_OperandsFrozenWhileBusy :
    ∃ (s t : State), s.pend ≠ 0 ∧ (∀ q, ¬ CoreNext s q) ∧ (∀ q, s.input ≠ .reset :: q) ∧ step s = .next t :=
  ⟨busyWith 7 [.write 0x018 5], _, by decide, by simp [CoreNext, busyWith, fresh], by simp [busyWith, fresh], rfl⟩

/-- DROP set by a dropped write, and cleared by a STATUS write. -/
theorem witness_DropRecordsDroppedWrites :
    (∃ (s t : State), step s = .next t ∧ s.drop = false ∧ t.drop = true) ∧ ∃ (s t : State), step s = .next t ∧ s.drop =
      true ∧ t.drop = false :=
  ⟨⟨busyWith 7 [.write 0x018 5], _, rfl, rfl, rfl⟩, ⟨{ fresh [.write 0x008 8] with drop := true }, _, rfl, rfl, by
    decide⟩⟩

theorem witness_HostAddressSelectsRegister (i : Instr) : ∃ (s : State) (q : List Input), s.input = asmCommand i :: q ∧
    s.pend = 0 :=
  ⟨fresh [asmCommand i], [], rfl, rfl⟩

end Sys2Proof.Tests
end

section
/-! # Proofs: the arithmetic primitives (R10) -/

namespace Sys2Proof.Machine

/-- Inside the range ROTL32 is defined for, its two shifts are the library's rotation. -/
theorem rotl32_eq_rotateLeft (x : Word) {n : Nat} (hn : n < 32) : rotl32 x n = x.rotateLeft n := by
  rw [BitVec.rotateLeft_def, Nat.mod_eq_of_lt hn, rotl32]

/-- R10's formula for ROTL32 on unbounded integers; it needs no bound on `n`. -/
theorem rotl32_toNat (x : Word) (n : Nat) :
    (rotl32 x n).toNat = (x.toNat * 2 ^ n ||| x.toNat / 2 ^ (32 - n)) % 2 ^ 32 := by
  have hright : x.toNat / 2 ^ (32 - n) % 2 ^ 32 = x.toNat / 2 ^ (32 - n) :=
    Nat.mod_eq_of_lt ((Nat.div_le_self _ _).trans_lt x.isLt)
  rw [rotl32, BitVec.toNat_or, BitVec.toNat_shiftLeft, BitVec.toNat_ushiftRight, Nat.shiftLeft_eq,
    Nat.shiftRight_eq_div_pow, Nat.or_mod_two_pow, hright]

/-- A sum of five words, reduced once. -/
theorem add_five_toNat (a b c d e : Word) :
    (a + b + c + d + e).toNat = (a.toNat + b.toNat + c.toNat + d.toNat + e.toNat) % 2 ^ 32 := by
  simp only [BitVec.toNat_add, Nat.mod_add_mod]

/-- Settles O29: the sum by reducing once, ROTL32 by its two shifts. -/
theorem arithmeticPrimitives : Obligations.ArithmeticPrimitives :=
  ⟨add_five_toNat, fun x n _ hn => ⟨rotl32_eq_rotateLeft x (by omega), rotl32_toNat x n⟩⟩

end Sys2Proof.Machine
end

section
/-! # Proofs: the length of the padded message (R7, R64, R65) -/

namespace Sys2Proof.Machine

theorem padlen_mod (n : Nat) : padlen n % 64 = 0 := by
  unfold padlen
  omega

theorem padlen_mono {m n : Nat} (h : m ≤ n) : padlen m ≤ padlen n := by
  unfold padlen
  omega

/-- PADLEN can hold every padded length: the bound R7 (a) puts on MSG_CAP is there for this. -/
theorem padCap_lt {cap : Nat} (h : Config.MsgCapLegal cap) : padCap cap < 2 ^ 32 := by
  obtain ⟨-, -, hle⟩ := h
  unfold padCap padlen
  omega

@[simp] theorem be64Bytes_length (v : BitVec 64) : (be64Bytes v).length = 8 := by
  simp [be64Bytes]

theorem zeroCount_eq (n : Nat) : n + 9 + zeroCount n = padlen n := by
  unfold zeroCount padlen
  omega

@[simp] theorem padMessage_length (m : List Byte) : (padMessage m).length = padlen m.length := by
  have := zeroCount_eq m.length
  simp only [padMessage, List.length_append, List.length_replicate, List.length_singleton, be64Bytes_length]
  omega

@[simp] theorem message_length (s : State) : (message s).1.length = msgLength s := memRead_length _ _ _ _

end Sys2Proof.Machine
end

section
/-! # Proofs: the acceptance checks and the opcodes, inverted (R59, R105) -/

namespace Sys2Proof.Machine

theorem le_msgCap_of_lengthCheck {s : State} (h : lengthCheck s = none) : msgLength s ≤ s.msgCap := by
  by_contra hgt
  rw [lengthCheck, if_pos (Nat.lt_of_not_le hgt)] at h
  split at h <;> cases h

theorem lt_nblk_of_rangeCheck {s : State} (h : rangeCheck s = none) : blockIndex s < s.nblk.toNat := by
  by_contra hge
  rw [rangeCheck, if_pos (Nat.le_of_not_lt hge)] at h
  cases h

theorem opcodeOf_le_seven (i : Instr) : (opcodeOf i).toNat ≤ 7 := by cases i <;> decide

theorem errorCode_range (e : CmdError) : 1 ≤ (errorCode e).toNat ∧ (errorCode e).toNat ≤ 4 := by
  cases e <;> decide

/-- The commands with PAD's opcode or HASH's check the length. -/
theorem checkOf_eq_lengthCheck {i : Instr} (s : State) (h : opcodeOf i = 0x2 ∨ opcodeOf i = 0x7) :
    checkOf s i = lengthCheck s := by
  cases i with
  | pad | hash => rfl
  | _ => exact absurd h (by decide)

/-- The command with SPLIT's opcode checks the block index. -/
theorem checkOf_eq_rangeCheck {i : Instr} (s : State) (h : opcodeOf i = 0x3) : checkOf s i = rangeCheck s := by
  cases i with
  | split => rfl
  | _ => exact absurd h (by decide)

end Sys2Proof.Machine
end

section
/-! # Proofs: the invariant after each register write and status change

One lemma per named update of the state. An update of fields the invariant does not speak of keeps it as it stands; the
others ask for just the clause they touch. -/

namespace Sys2Proof.Machine

variable {s : State}

namespace Invariant

theorem withInput (h : Invariant s) (q : List Input) : Invariant (s.withInput q) := { h with }
theorem withDraws (h : Invariant s) (d : Nat) : Invariant (s.withDraws d) := { h with }
theorem setH (h : Invariant s) (f : Five) : Invariant (s.setH f) := { h with }
theorem setV (h : Invariant s) (f : Five) : Invariant (s.setV f) := { h with }
theorem setW (h : Invariant s) (w : Vector Word 80) : Invariant (s.setW w) := { h with }
theorem setBlk (h : Invariant s) (b : Vector Byte 64) : Invariant (s.setBlk b) := { h with }
theorem setDig (h : Invariant s) (b : Vector Byte 40) : Invariant (s.setDig b) := { h with }
theorem setIe (h : Invariant s) (b : Bool) : Invariant (s.setIe b) := { h with }
theorem dropWrite (h : Invariant s) : Invariant s.dropWrite := { h with }

theorem setMsg (h : Invariant s) {m : Memory} (hwf : Memory.wf m) (hb : ∀ c ∈ m, c.1 < s.msgCap) :
    Invariant (s.setMsg m) :=
  { h with msgWf := hwf, msgBound := hb }

theorem setMsgptr (h : Invariant s) {x : Word} (hx : x.toNat % 4 = 0) : Invariant (s.setMsgptr x) :=
  { h with msgptrAligned := hx }

theorem setPadptr (h : Invariant s) {x : Word} (hx : x.toNat % 4 = 0) : Invariant (s.setPadptr x) :=
  { h with padptrAligned := hx }

/-- MSGLEN may be written only while no command that has checked it is in flight. -/
theorem setMsglen (h : Invariant s) (hp : s.pend = 0) (x : BitVec 64) : Invariant (s.setMsglen x) :=
  { h with lengthHeld := by simp [hp] }

/-- BLKSEL may be written only while SPLIT, which has checked it, is not in flight. -/
theorem setBlksel (h : Invariant s) (hp : s.pend = 0) (x : Word) : Invariant (s.setBlksel x) :=
  { h with rangeHeld := by simp [hp] }

/-- A STATUS write clears ERR and ERRCODE together or neither, and sets nothing (R27). -/
theorem statusWrite (h : Invariant s) (v : Word) : Invariant (statusWrite v s) := by
  have hbusy (hb : s.busy = true) : (clearDoneDrop v s).done = false ∧ s.err = false := by
    obtain ⟨hdone, herr⟩ := h.busyClear hb
    simp [clearDoneDrop, hdone, herr]
  have hclear : Invariant (clearDoneDrop v s) := { h with busyClear := hbusy }
  unfold Machine.statusWrite
  split
  · exact { hclear with
      errcodeClear := fun _ => rfl
      errcodeRange := fun herr => by cases herr
      busyClear := fun hb => ⟨(hbusy hb).1, rfl⟩ }
  · exact hclear

/-- A rejection reports a code of R99, and only an idle block rejects (R97). -/
theorem reject (h : Invariant s) (hp : s.pend = 0) (e : CmdError) : Invariant (s.reject e) :=
  { h with
    errcodeClear := fun herr => by cases herr
    errcodeRange := fun _ => errorCode_range e
    busyClear := fun hb => absurd hp (busy_eq_true.1 hb) }

/-- An accepted command has passed its checks, which are what the invariant says of a command in flight. -/
theorem accept (h : Invariant s) {i : Instr} (herr : s.err = false) (hc : checkOf s i = none) :
    Invariant (s.accept (opcodeOf i)) :=
  { h with
    pendLegal := opcodeOf_le_seven i
    busyClear := fun _ => ⟨rfl, herr⟩
    lengthHeld := fun hop => le_msgCap_of_lengthCheck (checkOf_eq_lengthCheck s hop ▸ hc)
    rangeHeld := fun hop => lt_nblk_of_rangeCheck (checkOf_eq_rangeCheck s hop ▸ hc) }

/-- With PEND cleared nothing is asked of a command in flight. -/
theorem finish (h : Invariant s) : Invariant s.finish :=
  { h with
    pendLegal := Nat.zero_le _
    busyClear := fun hb => absurd rfl (busy_eq_true.1 hb)
    lengthHeld := by simp
    rangeHeld := by simp }

end Invariant

end Sys2Proof.Machine
end

section
/-! # Proofs: the invariant after reset (R119, R120) -/

namespace Sys2Proof.Machine

theorem config_msgCap_legal : Config.MsgCapLegal Config.msgCap := by
  have := Config.msgCapIndex.isLt
  unfold Config.MsgCapLegal Config.msgCap
  omega

/-- After reset the buffers are empty, every count and pointer is 0 and no command is in flight. -/
theorem invariant_resetWith {cap : Nat} (h : Config.MsgCapLegal cap) : Invariant (State.resetWith cap) where
  capLegal := h
  msgWf := List.Pairwise.nil
  padWf := List.Pairwise.nil
  msgBound := fun _ hc => absurd hc List.not_mem_nil
  padBound := fun _ hc => absurd hc List.not_mem_nil
  padlenBlocks := rfl
  padlenBound := Nat.zero_le _
  nblkPadlen := rfl
  padWritten := fun _ hi => absurd hi (Nat.not_lt_zero _)
  msgptrAligned := rfl
  padptrAligned := rfl
  errcodeClear := fun _ => rfl
  errcodeRange := fun herr => by cases herr
  pendLegal := Nat.zero_le _
  busyClear := fun _ => ⟨rfl, rfl⟩
  lengthHeld := fun _ => Nat.zero_le _
  rangeHeld := by simp [State.resetWith]

theorem Invariant.resetInput {s : State} (h : Invariant s) : Invariant (resetInput s) :=
  { invariant_resetWith h.capLegal with }

/-- Settles O49: the reset state of any legal capacity meets the invariant, and MSG_CAP is legal. -/
theorem invariantHoldsAtReset : Obligations.InvariantHoldsAtReset := invariant_resetWith config_msgCap_legal

end Sys2Proof.Machine
end

section
/-! # Proofs: the invariant when a command completes (R95) -/

namespace Sys2Proof.Machine

variable {s t : State}

/-- After a write from index 0 every byte below its length has been written. -/
theorem memGet_memWrite_zero_isSome (m : Memory) {b : List Byte} {i : Nat} (hi : i < b.length) :
    (memGet (memWrite m 0 b) i).isSome := by
  simp [memGet_memWrite, hi]

/-- PAD's completion: for a message that fits, the padded message fits its buffer, its length is PADLEN, and every byte
below it is written in this step. -/
theorem Invariant.padEffect (h : Invariant s) (hlen : msgLength s ≤ s.msgCap) (hp : s.pend ≠ 0x3) :
    Invariant (padEffect s) := by
  have hle : padlen (msgLength s) ≤ padCap s.msgCap := padlen_mono hlen
  have hmod := padlen_mod (msgLength s)
  have hlt : padlen (msgLength s) < 2 ^ 32 := hle.trans_lt (padCap_lt h.capLegal)
  have hpadlen : (BitVec.ofNat 32 (padlen (msgLength s))).toNat = padlen (msgLength s) :=
    by rw [BitVec.toNat_ofNat, Nat.mod_eq_of_lt hlt]
  have hnblk : (BitVec.ofNat 32 (padlen (msgLength s) / 64)).toNat = padlen (msgLength s) / 64 :=
    by rw [BitVec.toNat_ofNat, Nat.mod_eq_of_lt (by omega)]
  have hbytes : (padMessage (message s).1).length = padlen (msgLength s) := by simp
  rw [padEffect_eq]
  refine Invariant.withDraws ?_ _
  exact { h with
    padWf := memWrite_wf _ _ _ h.padWf
    padBound := memWrite_bound _ _ _ _ h.padBound (by rw [hbytes, Nat.zero_add]; exact hle)
    padlenBlocks := by rw [State.setPad_padlen, hpadlen, hmod]
    padlenBound := by rw [State.setPad_padlen, hpadlen]; exact hle
    nblkPadlen := by rw [State.setPad_padlen, State.setPad_nblk, hpadlen, hnblk]; omega
    padWritten := fun i hi =>
      memGet_memWrite_zero_isSome s.pad (by rwa [State.setPad_padlen, hpadlen, ← hbytes] at hi)
    rangeHeld := fun hop => absurd hop hp }

/-- HASH's loop writes only fields the invariant does not speak of. -/
theorem Invariant.of_sameOutsideLoop (h : Invariant s) (e : SameOutsideLoop s t) : Invariant t := by
  have ht : t = { s with h := t.h, v := t.v, w := t.w, blk := t.blk, draws := t.draws } :=
    State.ext rfl rfl rfl rfl e.dig e.msg e.pad e.msglen e.blksel e.padlen e.nblk e.msgptr e.padptr e.ie e.done e.err
      e.drop e.errcode e.pend e.msgCap e.input e.readData rfl
  rw [ht]
  exact { h with }

/-- The writes of the command in flight keep the invariant: PAD and HASH by the length check that still holds. -/
theorem Invariant.effectOf (h : Invariant s) {i : Instr} (hp : s.pend = opcodeOf i) : Invariant (effectOf i s) := by
  cases i with
  | init => exact h.setH iv
  | pad => exact h.padEffect (h.lengthHeld (.inl hp)) (by rw [hp]; decide)
  | split =>
    obtain ⟨b, d, e⟩ := splitEffect_shape s
    rw [effectOf_split, e]
    exact (h.setBlk b).withDraws d
  | sched =>
    obtain ⟨w, e⟩ := schedEffect_shape s
    rw [effectOf_sched, e]
    exact h.setW w
  | compress =>
    obtain ⟨f, g, e⟩ := compressEffect_shape s
    rw [effectOf_compress, e]
    exact (h.setV f).setH g
  | format =>
    obtain ⟨b, e⟩ := formatEffect_shape s
    rw [effectOf_format, e]
    exact h.setDig b
  | hash =>
    have hpad : Invariant (Machine.padEffect (initEffect s)) :=
      (h.setH iv).padEffect (h.lengthHeld (.inr hp)) (by rw [State.setH_pend, hp]; decide)
    rw [effectOf_hash, hashEffect_eq]
    exact (hpad.of_sameOutsideLoop (hashBlocks_same s)).setDig _

/-- A command keeps the invariant whatever becomes of it: completed, dropped, rejected or accepted. -/
theorem Invariant.exec (h : Invariant s) {i : Instr} (he : exec i s = .next t) : Invariant t := by
  obtain ⟨hp, rfl⟩ | ⟨-, rfl⟩ | ⟨hp, -, e, -, rfl⟩ | ⟨-, herr, hc, rfl⟩ := exec_cases he
  · exact (h.effectOf hp).finish
  · exact h.dropWrite
  · exact h.reject hp e
  · exact h.accept herr hc

end Sys2Proof.Machine
end

section
/-! # Proofs: the invariant after a Host access (R38 to R48) -/

namespace Sys2Proof.Machine

variable {s t : State}

/-- A data port moves its pointer to the next word, with the carry out of bit 31 lost. -/
theorem add_four_aligned {x : Word} (h : x.toNat % 4 = 0) : (x + 4).toNat % 4 = 0 := by
  bv_omega

/-- The mask of R33 and R34 clears bits 1:0. -/
theorem masked_aligned (v : Word) : (v &&& 0xFFFFFFFC).toNat % 4 = 0 := by
  have hmask : (0xFFFFFFFC : Word).toNat % 2 ^ 2 = 0 := by decide
  rw [BitVec.toNat_and, show 4 = 2 ^ 2 from rfl, Nat.and_mod_two_pow, hmask, Nat.and_zero]

theorem Invariant.hostRead (h : Invariant s) (a : Word) : Invariant (hostRead a s) := by
  obtain ⟨x, d, m, p, e, hm, hp⟩ := hostRead_shape a s
  rw [e]
  refine { h with msgptrAligned := ?_, padptrAligned := ?_ }
  · rcases hm with rfl | ⟨rfl, -⟩
    · exact h.msgptrAligned
    · exact add_four_aligned h.msgptrAligned
  · rcases hp with rfl | ⟨rfl, -⟩
    · exact h.padptrAligned
    · exact add_four_aligned h.padptrAligned

/-- A MSGDATA write puts its word into MSG below MSG_CAP, or is dropped; either way MSGPTR moves on. -/
theorem Invariant.msgDataWrite (h : Invariant s) (v : Word) : Invariant (msgDataWrite v s) := by
  have hptr := add_four_aligned h.msgptrAligned
  unfold Machine.msgDataWrite
  split
  case isTrue hin =>
    exact (h.setMsg (memWrite_wf _ _ _ h.msgWf) (memWrite_bound _ _ _ _ h.msgBound hin)).setMsgptr hptr
  case isFalse => exact h.dropWrite.setMsgptr hptr

/-- An illegal word is dropped or rejected, never accepted. -/
theorem Invariant.present_illegal (h : Invariant s) : Invariant (present 0 (some .illegal) s) := by
  obtain ⟨-, e⟩ | ⟨hp, -, c, -, e⟩ | ⟨-, -, hc, -⟩ := present_cases 0 (some .illegal) s
  · exact e ▸ h.dropWrite
  · exact e ▸ h.reject hp c
  · cases hc

theorem Invariant.commandWrite (h : Invariant s) {v : Word} (hw : commandWrite v s = .quiet t) : Invariant t := by
  unfold Machine.commandWrite at hw
  split at hw
  · exact Turn.quiet.inj hw ▸ h.present_illegal
  · cases hw

/-- A write while no command runs, register by register. -/
theorem Invariant.idleWrite (h : Invariant s) (hp : s.pend = 0) {o : Option Reg} {v : Word}
    (hw : idleWrite o v s = .quiet t) : Invariant t := by
  cases o with
  | none => exact Turn.quiet.inj hw ▸ h
  | some r =>
    cases r with
    | ctrl => exact Turn.quiet.inj hw ▸ h.setIe _
    | status => exact Turn.quiet.inj hw ▸ h.statusWrite v
    | cmd => exact h.commandWrite hw
    | msglenLo | msglenHi => exact Turn.quiet.inj hw ▸ h.setMsglen hp _
    | blksel => exact Turn.quiet.inj hw ▸ h.setBlksel hp v
    | msgptr => exact Turn.quiet.inj hw ▸ h.setMsgptr (masked_aligned v)
    | msgdata => exact Turn.quiet.inj hw ▸ h.msgDataWrite v
    | padptr => exact Turn.quiet.inj hw ▸ h.setPadptr (masked_aligned v)
    | _ => exact Turn.quiet.inj hw ▸ h

/-- While a command runs a write reaches CTRL or STATUS or is dropped (R48). -/
theorem Invariant.hostWrite (h : Invariant s) {a v : Word} (hw : hostWrite a v s = .quiet t) : Invariant t := by
  cases hb : s.busy with
  | false => exact h.idleWrite (busy_eq_false.1 hb) (hostWrite_idle a v hb ▸ hw)
  | true =>
    by_cases hctrl : regAt (offsetOf a) = some .ctrl
    · rw [hostWrite_ctrl v s hctrl] at hw
      exact Turn.quiet.inj hw ▸ h.setIe _
    by_cases hstatus : regAt (offsetOf a) = some .status
    · rw [hostWrite_status v s hstatus] at hw
      exact Turn.quiet.inj hw ▸ h.statusWrite v
    · rw [hostWrite_busy v hb hctrl hstatus] at hw
      exact Turn.quiet.inj hw ▸ h.dropWrite

end Sys2Proof.Machine
end

section
/-! # Proofs: every step keeps the invariant -/

namespace Sys2Proof.Machine

/-- Settles O50, by the turn the step takes: the Core's, a read, a write, a command presented, or the reset input. -/
theorem stepKeepsInvariant : Obligations.StepKeepsInvariant := by
  intro s t h hstep
  obtain ⟨u, hu, hturn⟩ | ⟨a, q, -, rfl⟩ | ⟨a, v, q, -, hw⟩ | ⟨a, v, q, i, -, -, he⟩ | ⟨q, -, rfl⟩ :=
    step_cases hstep
  · have hinv : Invariant u := by
      obtain ⟨rfl, -⟩ | ⟨q, -, rfl⟩ := hu
      · exact h
      · exact h.withInput q
    obtain ⟨-, rfl⟩ | ⟨i, hp, rfl⟩ := hturn
    · exact hinv
    · exact (hinv.effectOf hp).finish
  · exact (h.withInput q).hostRead a
  · exact (h.withInput q).hostWrite hw
  · exact (h.withInput q).exec he
  · exact (h.withInput q).resetInput

end Sys2Proof.Machine
end

section
/-! # Proofs: the register map, both ways (R24, R36, R38) -/

namespace Sys2Proof.Machine

open Sys2Proof.Spec

theorem offsetOf_eq_off (a : Word) : offsetOf a = off a := offsetOf_eq a

theorem off_mod_four (a : Word) : off a % 4 = 0 := Nat.mul_mod_left _ 4

theorem off_lt (a : Word) : off a < 0x1000 := by
  unfold off
  omega

theorem regOffset_mod_four (r : Reg) : regOffset r % 4 = 0 := by
  cases r <;> simp only [regOffset] <;> omega

theorem regOffset_lt (r : Reg) : regOffset r < 0x1000 := by
  cases r <;> simp only [regOffset] <;> omega

theorem regAt_regOffset (r : Reg) : regAt (regOffset r) = some r := by
  cases r with
  | h i | v i | blkw i | w i | digw i => revert i; decide
  | _ => rfl

/-- The registers below 0x034 stand one after the other, a word apart. -/
theorem map_regOffset_regAt_low {k : Nat} (hk : k < 13) : (regAt (4 * k)).map regOffset = some (4 * k) := by
  decide +revert

/-- In a window of `k` words from `base` on, the aligned offset `n` is that of word `(n - base) / 4`. -/
theorem window_offset {base k n : Nat} [NeZero k] (hn : n % 4 = 0) (hbase : base % 4 = 0) (hlo : base ≤ n)
    (hhi : n < base + 4 * k) : base + 4 * (Fin.ofNat k ((n - base) / 4)).val = n := by
  rw [Fin.val_ofNat, Nat.mod_eq_of_lt (by omega)]
  omega

theorem regOffset_of_regAt {n : Nat} {r : Reg} (hn : n % 4 = 0) (h : regAt n = some r) : regOffset r = n := by
  by_cases hlow : n < 0x034
  · obtain ⟨k, rfl⟩ := Nat.dvd_of_mod_eq_zero hn
    have hmap := map_regOffset_regAt_low (k := k) (by omega)
    rw [h] at hmap
    exact Option.some.inj hmap
  · rw [regAt, if_neg hlow] at h
    split_ifs at h <;> obtain rfl := Option.some.inj h <;> exact window_offset hn (by decide) (by omega) (by omega)

/-- An aligned offset names no register exactly where R36 reserves it. -/
theorem regAt_eq_none_iff {n : Nat} (hn : n % 4 = 0) (hlt : n < 0x1000) : regAt n = none ↔ reservedOffset n := by
  by_cases hlow : n < 0x034
  · obtain ⟨k, rfl⟩ := Nat.dvd_of_mod_eq_zero hn
    have hmap := map_regOffset_regAt_low (k := k) (by omega)
    refine iff_of_false (fun hnone => ?_) (by unfold reservedOffset; omega)
    rw [hnone] at hmap
    cases hmap
  · rw [regAt, if_neg hlow, reservedOffset]
    split_ifs <;> simp <;> omega

theorem regAt_offsetOf_eq_some_iff {a : Word} {r : Reg} : regAt (offsetOf a) = some r ↔ off a = regOffset r := by
  rw [offsetOf_eq_off]
  exact ⟨fun h => (regOffset_of_regAt (off_mod_four a) h).symm, fun h => h ▸ regAt_regOffset r⟩

theorem regAt_offsetOf_eq_none_iff {a : Word} : regAt (offsetOf a) = none ↔ reservedOffset (off a) := by
  rw [offsetOf_eq_off]
  exact regAt_eq_none_iff (off_mod_four a) (off_lt a)

/-- Settles O41, by the two inverse directions of the map. -/
theorem registerMapIsComplete : Obligations.RegisterMapIsComplete :=
  ⟨fun r => ⟨regAt_regOffset r, regOffset_mod_four r, regOffset_lt r⟩, fun _ => regAt_eq_none_iff,
    fun _ _ => regOffset_of_regAt⟩

end Sys2Proof.Machine
end

section
/-! # Proofs: the layout of STATUS (R27) -/

namespace Sys2Proof.Machine

theorem bitWord_getLsbD (b : Bool) (k : Nat) : (bitWord b).getLsbD k = (decide (k = 0) && b) := by
  cases k <;> simp [bitWord]

theorem bitWord_shiftLeft_getLsbD (b : Bool) {j : Nat} (hj : j < 32) (k : Nat) :
    (bitWord b <<< j).getLsbD k = (decide (k = j) && b) := by
  have hplace : (k < 32 ∧ ¬k < j) ∧ k - j = 0 ↔ k = j := by omega
  rw [BitVec.getLsbD_shiftLeft, bitWord_getLsbD, ← Bool.and_assoc, ← decide_not, ← Bool.decide_and, ← Bool.decide_and,
    decide_eq_decide.2 hplace]

/-- STATUS bit by bit: each field stands at a place of its own. -/
theorem statusWord_getLsbD (s : State) (k : Nat) :
    (statusWord s).getLsbD k =
      if k = 0 then s.busy else if k = 1 then s.done else if k = 2 then s.err else if k = 3 then s.drop
      else decide (8 ≤ k ∧ k < 12) && s.errcode.getLsbD (k - 8) := by
  have herrcode : (s.errcode.setWidth 32 <<< 8).getLsbD k = (decide (8 ≤ k ∧ k < 12) && s.errcode.getLsbD (k - 8)) := by
    by_cases hk : 8 ≤ k ∧ k < 12
    · simp [hk, show k < 32 by omega]
    · by_cases hlow : k < 8
      · simp [hlow]
      · simp [BitVec.getLsbD_of_ge s.errcode (k - 8) (by omega)]
  simp only [statusWord, BitVec.getLsbD_or, bitWord_getLsbD, bitWord_shiftLeft_getLsbD _ (show 1 < 32 by decide),
    bitWord_shiftLeft_getLsbD _ (show 2 < 32 by decide), bitWord_shiftLeft_getLsbD _ (show 3 < 32 by decide), herrcode]
  split_ifs <;> simp [*]

/-- From bit 4 on STATUS shows ERRCODE or nothing. -/
theorem statusWord_getLsbD_of_four_le (s : State) {k : Nat} (hk : 4 ≤ k) :
    (statusWord s).getLsbD k = (decide (8 ≤ k ∧ k < 12) && s.errcode.getLsbD (k - 8)) := by
  rw [statusWord_getLsbD, if_neg (by omega), if_neg (by omega), if_neg (by omega), if_neg (by omega)]

theorem statusWord_errcode (s : State) : (statusWord s).extractLsb' 8 4 = s.errcode := by
  refine BitVec.eq_of_getLsbD_eq fun i hi => ?_
  have hfield : 8 ≤ 8 + i ∧ 8 + i < 12 := by omega
  rw [BitVec.getLsbD_extractLsb', statusWord_getLsbD_of_four_le s (by omega), Nat.add_sub_cancel_left]
  simp only [hi, hfield, decide_true, Bool.true_and, and_self]

/-- Settles O44, reading each field off the word bit by bit. -/
theorem statusLayout : Obligations.StatusLayout := by
  intro s
  refine ⟨statusWord_getLsbD s 0, statusWord_getLsbD s 1, statusWord_getLsbD s 2, statusWord_getLsbD s 3,
    statusWord_errcode s, fun k hk => ?_⟩
  have hfield : ¬(8 ≤ k ∧ k < 12) := by omega
  rw [statusWord_getLsbD_of_four_le s (by omega), decide_eq_false hfield, Bool.false_and]

end Sys2Proof.Machine
end

section
/-! # Proofs: what a Host write can do (R39, R45, R48, R97)

`WriteOutcome` lists every end a Host write can come to. Its inversion is the one place that takes `hostWrite` apart; what
each register needs of a write is a case analysis over it. -/

namespace Sys2Proof.Machine

open Sys2Proof.Spec

/-- Two states that agree in MSG_CAP and in all that a completion can write: the datapath registers, the buffers but for
MSG, PADLEN and NBLK. -/
structure SameResults (s t : State) : Prop where
  h : t.h = s.h
  v : t.v = s.v
  w : t.w = s.w
  blk : t.blk = s.blk
  dig : t.dig = s.dig
  pad : t.pad = s.pad
  padlen : t.padlen = s.padlen
  nblk : t.nblk = s.nblk
  msgCap : t.msgCap = s.msgCap

/-- The states a write of `v` to address `a` can leave, from state `u` with the write taken off its queue. -/
inductive WriteOutcome (a v : Word) (u : State) : State → Prop
  | ctrl (ho : off a = 0x004) : WriteOutcome a v u (u.setIe (v.getLsbD 0))
  | status (ho : off a = 0x008) : WriteOutcome a v u
      { u with done := u.done && !v.getLsbD 1, err := u.err && !v.getLsbD 2, drop := u.drop && !v.getLsbD 3,
               errcode := if v.getLsbD 2 then 0 else u.errcode }
  | dropped (hp : u.pend ≠ 0) (hctrl : off a ≠ 0x004) (hstatus : off a ≠ 0x008) : WriteOutcome a v u u.dropWrite
  | cmdDropped (ho : off a = 0x00C) (he : u.err = true) : WriteOutcome a v u u.dropWrite
  | cmdRejected (hp : u.pend = 0) (ho : off a = 0x00C) (he : u.err = false) (e : CmdError) :
      WriteOutcome a v u (u.reject e)
  | cmdAccepted (hp : u.pend = 0) (ho : off a = 0x00C) (he : u.err = false) (i : Instr) :
      WriteOutcome a v u (u.accept (opcodeOf i))
  | msglenLo (hp : u.pend = 0) (ho : off a = 0x010) :
      WriteOutcome a v u (u.setMsglen (u.msglen.extractLsb' 32 32 ++ v))
  | msglenHi (hp : u.pend = 0) (ho : off a = 0x014) :
      WriteOutcome a v u (u.setMsglen (v ++ u.msglen.extractLsb' 0 32))
  | blksel (hp : u.pend = 0) (ho : off a = 0x018) : WriteOutcome a v u (u.setBlksel v)
  | msgptr (hp : u.pend = 0) (ho : off a = 0x024) : WriteOutcome a v u (u.setMsgptr (v &&& 0xFFFFFFFC))
  | msgStored (hp : u.pend = 0) (ho : off a = 0x028) : WriteOutcome a v u
      (advanceMsgptr (u.setMsg (memWrite u.msg u.msgptr.toNat (wordBytes v))))
  | msgDropped (hp : u.pend = 0) (ho : off a = 0x028) (hout : u.msgCap < u.msgptr.toNat + 4) :
      WriteOutcome a v u (advanceMsgptr u.dropWrite)
  | padptr (hp : u.pend = 0) (ho : off a = 0x02C) : WriteOutcome a v u (u.setPadptr (v &&& 0xFFFFFFFC))
  | ignored (hp : u.pend = 0) : WriteOutcome a v u u

variable {a v : Word} {u t : State}

/-! ### The inversion -/

/-- A write that no register takes: to a reserved offset, a read-only register or a window (R36). -/
theorem idleWrite_reservedOrReadOnly (v : Word) (u : State)
    (ho : reservedOffset (off a) ∨ readOnlyOffset (off a)) : idleWrite (regAt (offsetOf a)) v u = .quiet u := by
  cases hr : regAt (offsetOf a) with
  | none => rfl
  | some r =>
    have hoff := regAt_offsetOf_eq_some_iff.1 hr
    cases r with
    | id | padlen | nblk | paddata | h _ | v _ | blkw _ | w _ | digw _ => rfl
    | _ =>
      rw [hoff] at ho
      exact absurd ho (by simp [reservedOffset, readOnlyOffset, regOffset])

/-- An illegal word written to CMD is dropped or rejected. -/
theorem WriteOutcome.of_present_illegal (ho : off a = 0x00C) : WriteOutcome a v u (present 0 (some .illegal) u) := by
  obtain ⟨hd, e⟩ | ⟨hp, he, c, -, e⟩ | ⟨-, -, hc, -⟩ := present_cases 0 (some .illegal) u
  · rw [e]
    rcases hd with hp | he
    · exact .dropped hp (by omega) (by omega)
    · exact .cmdDropped ho he
  · exact e ▸ .cmdRejected hp ho he c
  · cases hc

theorem WriteOutcome.of_msgDataWrite (hp : u.pend = 0) (ho : off a = 0x028) :
    WriteOutcome a v u (msgDataWrite v u) := by
  unfold msgDataWrite
  split
  · exact .msgStored hp ho
  · exact .msgDropped hp ho (by omega)

theorem WriteOutcome.of_idleWrite (hp : u.pend = 0) (hw : idleWrite (regAt (offsetOf a)) v u = .quiet t) :
    WriteOutcome a v u t := by
  cases hr : regAt (offsetOf a) with
  | none =>
    rw [hr] at hw
    exact Turn.quiet.inj hw ▸ .ignored hp
  | some r =>
    have ho := regAt_offsetOf_eq_some_iff.1 hr
    rw [hr] at hw
    cases r with
    | ctrl => exact Turn.quiet.inj hw ▸ .ctrl ho
    | status =>
      obtain rfl := Turn.quiet.inj hw
      rw [statusWrite_eq]
      exact .status ho
    | cmd =>
      simp only [idleWrite, commandWrite] at hw
      split at hw
      · exact Turn.quiet.inj hw ▸ .of_present_illegal ho
      · cases hw
    | msglenLo => exact Turn.quiet.inj hw ▸ .msglenLo hp ho
    | msglenHi => exact Turn.quiet.inj hw ▸ .msglenHi hp ho
    | blksel => exact Turn.quiet.inj hw ▸ .blksel hp ho
    | msgptr => exact Turn.quiet.inj hw ▸ .msgptr hp ho
    | msgdata => exact Turn.quiet.inj hw ▸ .of_msgDataWrite hp ho
    | padptr => exact Turn.quiet.inj hw ▸ .padptr hp ho
    | _ => exact Turn.quiet.inj hw ▸ .ignored hp

/-- While a command runs a write comes to a state at once (R48). -/
theorem WriteOutcome.exists_of_busy (a v : Word) (hp : u.pend ≠ 0) :
    ∃ t, hostWrite a v u = .quiet t ∧ WriteOutcome a v u t := by
  by_cases hctrl : regAt (offsetOf a) = some .ctrl
  · exact ⟨_, hostWrite_ctrl v u hctrl, .ctrl (regAt_offsetOf_eq_some_iff.1 hctrl)⟩
  by_cases hstatus : regAt (offsetOf a) = some .status
  · rw [hostWrite_status v u hstatus, statusWrite_eq]
    exact ⟨_, rfl, .status (regAt_offsetOf_eq_some_iff.1 hstatus)⟩
  · have hoff (r : Reg) (h : regAt (offsetOf a) ≠ some r) : off a ≠ regOffset r := mt regAt_offsetOf_eq_some_iff.2 h
    exact ⟨_, hostWrite_busy v (busy_eq_true.2 hp) hctrl hstatus, .dropped hp (hoff .ctrl hctrl) (hoff .status hstatus)⟩

/-- A write that ends without running a command. -/
theorem WriteOutcome.of_quiet (hw : hostWrite a v u = .quiet t) : WriteOutcome a v u t := by
  by_cases hp : u.pend = 0
  · rw [hostWrite_idle a v (busy_eq_false.2 hp)] at hw
    exact .of_idleWrite hp hw
  · obtain ⟨t', hw', ht'⟩ := WriteOutcome.exists_of_busy a v hp
    exact Turn.quiet.inj (hw'.symm.trans hw) ▸ ht'

/-- Only a write to CMD while BUSY = 0 runs a command. -/
theorem cmd_of_hostWrite_command {i : Instr} {w : State} (hw : hostWrite a v u = .command i w) :
    u.pend = 0 ∧ off a = 0x00C := by
  have hp : u.pend = 0 := by
    by_contra hp
    obtain ⟨t', hw', -⟩ := WriteOutcome.exists_of_busy a v hp
    cases hw'.symm.trans hw
  rw [hostWrite_idle a v (busy_eq_false.2 hp)] at hw
  cases hr : regAt (offsetOf a) with
  | none =>
    rw [hr] at hw
    cases hw
  | some r =>
    rw [hr] at hw
    cases r with
    | cmd => exact ⟨hp, regAt_offsetOf_eq_some_iff.1 hr⟩
    | _ => cases hw

/-- A write that presents a command: with BUSY = 0 none is in flight to complete. -/
theorem WriteOutcome.of_command {i : Instr} {w : State} (hw : hostWrite a v u = .command i w) (he : exec i u = .next t) :
    WriteOutcome a v u t := by
  obtain ⟨hp, ho⟩ := cmd_of_hostWrite_command hw
  obtain ⟨hop, -⟩ | ⟨hd, rfl⟩ | ⟨-, herr, e, -, rfl⟩ | ⟨-, herr, -, rfl⟩ := exec_cases he
  · exact absurd (hop.symm.trans hp) (opcodeOf_ne_zero i)
  · exact .cmdDropped ho (hd.resolve_left (absurd hp))
  · exact .cmdRejected hp ho herr e
  · exact .cmdAccepted hp ho herr i

/-! ### What each register needs of a write -/

/-- A status bit a STATUS write clears is one it writes 1 to (R27). -/
theorem written_one_of_cleared {b c : Bool} (hb : b = true) (hclear : (b && !c) = false) : c = true := by
  simpa [hb] using hclear

namespace WriteOutcome

/-- A write touches none of the results of a command. -/
theorem sameResults (h : WriteOutcome a v u t) : SameResults u t := by
  cases h <;> constructor <;> rfl

theorem msg_changes (h : WriteOutcome a v u t) (hne : t.msg ≠ u.msg) : u.pend = 0 ∧ off a = 0x028 := by
  cases h with
  | msgStored hp ho => exact ⟨hp, ho⟩
  | _ => exact absurd rfl hne

theorem msglenLo_changes (h : WriteOutcome a v u t) (hne : t.msglen.extractLsb' 0 32 ≠ u.msglen.extractLsb' 0 32) :
    u.pend = 0 ∧ off a = 0x010 := by
  cases h with
  | msglenLo hp ho => exact ⟨hp, ho⟩
  | msglenHi => exact absurd BitVec.extractLsb'_append_eq_right hne
  | _ => exact absurd rfl hne

theorem msglenHi_changes (h : WriteOutcome a v u t) (hne : t.msglen.extractLsb' 32 32 ≠ u.msglen.extractLsb' 32 32) :
    u.pend = 0 ∧ off a = 0x014 := by
  cases h with
  | msglenHi hp ho => exact ⟨hp, ho⟩
  | msglenLo => exact absurd BitVec.extractLsb'_append_eq_left hne
  | _ => exact absurd rfl hne

theorem blksel_changes (h : WriteOutcome a v u t) (hne : t.blksel ≠ u.blksel) : u.pend = 0 ∧ off a = 0x018 := by
  cases h with
  | blksel hp ho => exact ⟨hp, ho⟩
  | _ => exact absurd rfl hne

theorem msgptr_changes (h : WriteOutcome a v u t) (hne : t.msgptr ≠ u.msgptr) :
    u.pend = 0 ∧ (off a = 0x024 ∨ off a = 0x028) := by
  cases h with
  | msgptr hp ho => exact ⟨hp, .inl ho⟩
  | msgStored hp ho => exact ⟨hp, .inr ho⟩
  | msgDropped hp ho => exact ⟨hp, .inr ho⟩
  | _ => exact absurd rfl hne

theorem padptr_changes (h : WriteOutcome a v u t) (hne : t.padptr ≠ u.padptr) : u.pend = 0 ∧ off a = 0x02C := by
  cases h with
  | padptr hp ho => exact ⟨hp, ho⟩
  | _ => exact absurd rfl hne

theorem ie_changes (h : WriteOutcome a v u t) (hne : t.ie ≠ u.ie) : off a = 0x004 ∧ t.ie = v.getLsbD 0 := by
  cases h with
  | ctrl ho => exact ⟨ho, rfl⟩
  | _ => exact absurd rfl hne

/-- No write sets DONE. -/
theorem done_of_done (h : WriteOutcome a v u t) (ht : t.done = true) : u.done = true := by
  cases h with
  | status => exact (Bool.and_eq_true_iff.1 ht).1
  | cmdRejected | cmdAccepted => cases ht
  | _ => exact ht

theorem done_cleared (h : WriteOutcome a v u t) (hu : u.done = true) (ht : t.done = false) :
    (off a = 0x008 ∧ v.getLsbD 1 = true) ∨ (off a = 0x00C ∧ u.pend = 0 ∧ u.err = false) := by
  cases h with
  | status ho => exact .inl ⟨ho, written_one_of_cleared hu ht⟩
  | cmdRejected hp ho he => exact .inr ⟨ho, hp, he⟩
  | cmdAccepted hp ho he => exact .inr ⟨ho, hp, he⟩
  | _ => exact absurd (hu.symm.trans ht) (by decide)

theorem err_set (h : WriteOutcome a v u t) (hu : u.err = false) (ht : t.err = true) : u.pend = 0 ∧ off a = 0x00C := by
  cases h with
  | cmdRejected hp ho => exact ⟨hp, ho⟩
  | status => exact absurd (hu.symm.trans (Bool.and_eq_true_iff.1 ht).1) (by decide)
  | _ => exact absurd (hu.symm.trans ht) (by decide)

theorem err_cleared (h : WriteOutcome a v u t) (hu : u.err = true) (ht : t.err = false) :
    off a = 0x008 ∧ v.getLsbD 2 = true := by
  cases h with
  | status ho => exact ⟨ho, written_one_of_cleared hu ht⟩
  | cmdRejected => cases ht
  | _ => exact absurd (hu.symm.trans ht) (by decide)

theorem errcode_changes (h : WriteOutcome a v u t) (hne : t.errcode ≠ u.errcode) :
    (off a = 0x008 ∧ v.getLsbD 2 = true) ∨ (off a = 0x00C ∧ u.pend = 0 ∧ u.err = false ∧ t.err = true) := by
  cases h with
  | status ho => exact .inl ⟨ho, by_contra fun hv => hne (if_neg hv)⟩
  | cmdRejected hp ho he => exact .inr ⟨ho, hp, he, rfl⟩
  | _ => exact absurd rfl hne

/-- PEND moves only from 0, by a command accepted. -/
theorem pend_changes (h : WriteOutcome a v u t) (hne : t.pend ≠ u.pend) :
    u.pend = 0 ∧ u.err = false ∧ off a = 0x00C := by
  cases h with
  | cmdAccepted hp ho he => exact ⟨hp, he, ho⟩
  | _ => exact absurd rfl hne

theorem drop_set (h : WriteOutcome a v u t) (hu : u.drop = false) (ht : t.drop = true) :
    (u.pend ≠ 0 ∧ off a ≠ 0x004 ∧ off a ≠ 0x008) ∨ (off a = 0x00C ∧ u.err = true) ∨
      (off a = 0x028 ∧ u.msgCap < u.msgptr.toNat + 4) := by
  cases h with
  | dropped hp hctrl hstatus => exact .inl ⟨hp, hctrl, hstatus⟩
  | cmdDropped ho he => exact .inr (.inl ⟨ho, he⟩)
  | msgDropped _ ho hout => exact .inr (.inr ⟨ho, hout⟩)
  | status => exact absurd (hu.symm.trans (Bool.and_eq_true_iff.1 ht).1) (by decide)
  | _ => exact absurd (hu.symm.trans ht) (by decide)

theorem drop_cleared (h : WriteOutcome a v u t) (hu : u.drop = true) (ht : t.drop = false) :
    off a = 0x008 ∧ v.getLsbD 3 = true := by
  cases h with
  | status ho => exact ⟨ho, written_one_of_cleared hu ht⟩
  | dropped | cmdDropped | msgDropped => cases ht
  | _ => exact absurd (hu.symm.trans ht) (by decide)

end WriteOutcome

end Sys2Proof.Machine
end

section
/-! # Proofs: what a step can do, register by register (R52, R95) -/

namespace Sys2Proof.Machine

open Sys2Proof.Spec

/-- The states a read of address `a` can leave, from state `u` with the read taken off its queue (R40, R45, R46, R49). -/
inductive ReadOutcome (a : Word) (u : State) : State → Prop
  | plain (x : Option Word) (d : Nat) : ReadOutcome a u { u with readData := x, draws := d }
  | msgdata (hp : u.pend = 0) (ho : off a = 0x028) (x : Option Word) (d : Nat) :
      ReadOutcome a u { u with readData := x, draws := d, msgptr := u.msgptr + 4 }
  | paddata (hp : u.pend = 0) (ho : off a = 0x030) (x : Option Word) (d : Nat) :
      ReadOutcome a u { u with readData := x, draws := d, padptr := u.padptr + 4 }

theorem ReadOutcome.of_hostRead (a : Word) (u : State) : ReadOutcome a u (hostRead a u) := by
  unfold hostRead
  cases hr : regAt (offsetOf a) with
  | none => exact .plain _ _
  | some r =>
    by_cases hp : u.pend = 0
    · have ho := regAt_offsetOf_eq_some_iff.1 hr
      simp only [busy_eq_false.2 hp, Bool.false_and, Bool.false_eq_true, if_false]
      cases r with
      | msgdata =>
        simp only [msgDataRead]
        split <;> exact .msgdata hp ho _ _
      | paddata =>
        simp only [padDataRead]
        split <;> exact .paddata hp ho _ _
      | _ => exact .plain _ _
    · simp only [busy_eq_true.2 hp, Bool.true_and]
      cases r <;> exact .plain _ _

/-- The states a step from `s` can answer, by the turn it takes. -/
inductive StepOutcome (s : State) : State → Prop
  | idles {q : List Input} (hq : CoreNext s q) (hp : s.pend = 0) : StepOutcome s (s.withInput q)
  | completes {q : List Input} {i : Instr} (hq : CoreNext s q) (hp : s.pend = opcodeOf i) :
      StepOutcome s (effectOf i (s.withInput q)).finish
  | reads {a : Word} {q : List Input} {t : State} (hi : s.input = .read a :: q) (hread : ReadOutcome a (s.withInput q) t) :
      StepOutcome s t
  | writes {a v : Word} {q : List Input} {t : State} (hi : s.input = .write a v :: q)
      (hwrite : WriteOutcome a v (s.withInput q) t) : StepOutcome s t
  | resets {q : List Input} (hi : s.input = .reset :: q) : StepOutcome s (resetInput (s.withInput q))

variable {s t : State}

/-- With nothing queued there is nothing to take off. -/
theorem withInput_nil_of_silent (h : s.input = []) : s.withInput [] = s := by
  rw [← h]
  rfl

theorem StepOutcome.of_coreTurn {q : List Input} (hq : CoreNext s q)
    (ht : (s.withInput q).pend = 0 ∧ t = s.withInput q ∨
      ∃ i, (s.withInput q).pend = opcodeOf i ∧ t = (effectOf i (s.withInput q)).finish) : StepOutcome s t := by
  obtain ⟨hp, rfl⟩ | ⟨i, hp, rfl⟩ := ht
  · exact .idles hq hp
  · exact .completes hq hp

theorem StepOutcome.of_step (h : step s = .next t) : StepOutcome s t := by
  obtain ⟨u, hu, ht⟩ | ⟨a, q, hi, rfl⟩ | ⟨a, v, q, hi, hw⟩ | ⟨a, v, q, i, hi, hw, he⟩ | ⟨q, hi, rfl⟩ := step_cases h
  · obtain ⟨rfl, hi⟩ | ⟨q, hi, rfl⟩ := hu
    · rw [← withInput_nil_of_silent hi] at ht
      exact .of_coreTurn (.inl ⟨hi, rfl⟩) ht
    · exact .of_coreTurn (.inr hi) ht
  · exact .reads hi (.of_hostRead a _)
  · exact .writes hi (.of_quiet hw)
  · exact .writes hi (.of_command hw he)
  · exact .resets hi

end Sys2Proof.Machine
end

section
/-! # Proofs: reserved and read-only offsets, and the halves of MSGLEN (R29, R36) -/

namespace Sys2Proof.Machine

open Sys2Proof.Spec

variable {s t : State} {a v : Word} {q : List Input}

theorem step_read (h : s.input = .read a :: q) : step s = .next (hostRead a (s.withInput q)) := by
  rw [step, nextTurn_read h]

theorem step_write_of_quiet (h : s.input = .write a v :: q) (hw : hostWrite a v (s.withInput q) = .quiet t) :
    step s = .next t := by
  rw [step, nextTurn_write h, hw]

theorem step_write_of_idleWrite (h : s.input = .write a v :: q) (hp : s.pend = 0)
    (hw : idleWrite (regAt (offsetOf a)) v (s.withInput q) = .quiet t) : step s = .next t := by
  have hb : (s.withInput q).busy = false := busy_eq_false.2 hp
  exact step_write_of_quiet h ((hostWrite_idle a v hb).trans hw)

/-- A reserved or read-only offset is neither that of CTRL nor that of STATUS. -/
theorem ctrl_status_writable {n : Nat} (h : reservedOffset n ∨ readOnlyOffset n) : n ≠ 0x004 ∧ n ≠ 0x008 := by
  unfold reservedOffset readOnlyOffset at h
  omega

/-- Settles O40: a reserved offset names no register, and no read-only register or window takes a write. -/
theorem reservedAndReadOnlyOffsets : Obligations.ReservedAndReadOnlyOffsets := by
  refine ⟨fun s a q hi ho => ?_, fun s a v q hi hp ho => ?_, fun s a v q hi hp ho => ?_⟩
  · have hread : hostRead a (s.withInput q) = (s.withInput q).reply 0 := by
      rw [hostRead, regAt_offsetOf_eq_none_iff.2 ho]
    rw [step_read hi, hread]
    rfl
  · exact step_write_of_idleWrite hi hp (idleWrite_reservedOrReadOnly v _ ho)
  · obtain ⟨hctrl, hstatus⟩ := ctrl_status_writable ho
    exact step_write_of_quiet hi
      (hostWrite_busy v (busy_eq_true.2 hp) (mt regAt_offsetOf_eq_some_iff.1 hctrl)
        (mt regAt_offsetOf_eq_some_iff.1 hstatus))

/-- Settles O45: each write joins the new half to the other half as it stands. -/
theorem msglenHalvesIndependent : Obligations.MsglenHalvesIndependent := by
  intro s a v q hi hp
  refine ⟨fun ho => ?_, fun ho => ?_⟩
  · have hreg : regAt (offsetOf a) = some .msglenLo := regAt_offsetOf_eq_some_iff.2 ho
    refine ⟨(s.withInput q).setMsglen (s.msglen.extractLsb' 32 32 ++ v),
      step_write_of_idleWrite hi hp (by rw [hreg]; rfl), ?_, ?_⟩
    · exact BitVec.extractLsb'_append_eq_right
    · exact BitVec.extractLsb'_append_eq_left
  · have hreg : regAt (offsetOf a) = some .msglenHi := regAt_offsetOf_eq_some_iff.2 ho
    refine ⟨(s.withInput q).setMsglen (v ++ s.msglen.extractLsb' 0 32),
      step_write_of_idleWrite hi hp (by rw [hreg]; rfl), ?_, ?_⟩
    · exact BitVec.extractLsb'_append_eq_left
    · exact BitVec.extractLsb'_append_eq_right

end Sys2Proof.Machine
end

section
/-! # Proofs: who writes the datapath registers and the buffers (R13 to R19, R31, R32, R53) -/

namespace Sys2Proof.Machine

open Sys2Proof.Spec

variable {s t : State} {i : Instr}

/-! ### The commands whose completion writes each result -/

/-- The states a command's completion can leave, with the values it writes left open: what HASH writes takes in every
result. -/
inductive EffectOutcome (s : State) : Instr → State → Prop
  | init (f : Five) : EffectOutcome s .init (s.setH f)
  | pad (m : Memory) (l n : Word) (d : Nat) : EffectOutcome s .pad ((s.setPad m l n).withDraws d)
  | split (b : Vector Byte 64) (d : Nat) : EffectOutcome s .split ((s.setBlk b).withDraws d)
  | sched (w : Vector Word 80) : EffectOutcome s .sched (s.setW w)
  | compress (f g : Five) : EffectOutcome s .compress ((s.setV f).setH g)
  | format (b : Vector Byte 40) : EffectOutcome s .format (s.setDig b)
  | hash (t : State) : EffectOutcome s .hash t

theorem EffectOutcome.of_effectOf (i : Instr) (s : State) : EffectOutcome s i (effectOf i s) := by
  cases i with
  | init => exact .init iv
  | pad =>
    obtain ⟨m, l, n, d, e⟩ := padEffect_shape s
    rw [effectOf_pad, e]
    exact .pad m l n d
  | split =>
    obtain ⟨b, d, e⟩ := splitEffect_shape s
    rw [effectOf_split, e]
    exact .split b d
  | sched =>
    obtain ⟨w, e⟩ := schedEffect_shape s
    rw [effectOf_sched, e]
    exact .sched w
  | compress =>
    obtain ⟨f, g, e⟩ := compressEffect_shape s
    rw [effectOf_compress, e]
    exact .compress f g
  | format =>
    obtain ⟨b, e⟩ := formatEffect_shape s
    rw [effectOf_format, e]
    exact .format b
  | hash => exact .hash _

namespace EffectOutcome

theorem h_writers (h : EffectOutcome s i t) (hne : t.h ≠ s.h) : opcodeOf i = 1 ∨ opcodeOf i = 5 ∨ opcodeOf i = 7 := by
  cases h with
  | init | compress | hash => decide
  | _ => exact absurd rfl hne

theorem v_writers (h : EffectOutcome s i t) (hne : t.v ≠ s.v) : opcodeOf i = 5 ∨ opcodeOf i = 7 := by
  cases h with
  | compress | hash => decide
  | _ => exact absurd rfl hne

theorem w_writers (h : EffectOutcome s i t) (hne : t.w ≠ s.w) : opcodeOf i = 4 ∨ opcodeOf i = 7 := by
  cases h with
  | sched | hash => decide
  | _ => exact absurd rfl hne

theorem blk_writers (h : EffectOutcome s i t) (hne : t.blk ≠ s.blk) : opcodeOf i = 3 ∨ opcodeOf i = 7 := by
  cases h with
  | split | hash => decide
  | _ => exact absurd rfl hne

theorem dig_writers (h : EffectOutcome s i t) (hne : t.dig ≠ s.dig) : opcodeOf i = 6 ∨ opcodeOf i = 7 := by
  cases h with
  | format | hash => decide
  | _ => exact absurd rfl hne

theorem pad_writers (h : EffectOutcome s i t) (hne : t.pad ≠ s.pad ∨ t.padlen ≠ s.padlen ∨ t.nblk ≠ s.nblk) :
    opcodeOf i = 2 ∨ opcodeOf i = 7 := by
  cases h with
  | pad | hash => decide
  | _ => exact absurd hne (by rintro (h | h | h) <;> exact h rfl)

end EffectOutcome

/-! ### The steps that write results -/

theorem ReadOutcome.sameResults {a : Word} {u : State} (h : ReadOutcome a u t) : SameResults u t := by
  cases h <;> constructor <;> rfl

/-- Apart from reset, a step completes a command or writes no result. -/
theorem StepOutcome.completes_or_sameResults (h : StepOutcome s t) (hr : ∀ q, s.input ≠ .reset :: q) :
    (∃ q i, CoreNext s q ∧ s.pend = opcodeOf i ∧ t = (effectOf i (s.withInput q)).finish) ∨ SameResults s t := by
  cases h with
  | completes hq hp => exact .inl ⟨_, _, hq, hp, rfl⟩
  | idles => exact .inr (by constructor <;> rfl)
  | reads _ hread => exact .inr { hread.sameResults with }
  | writes _ hwrite => exact .inr { hwrite.sameResults with }
  | resets hi => exact absurd hi (hr _)

theorem StepOutcome.msg_changes (h : StepOutcome s t) (hr : ∀ q, s.input ≠ .reset :: q) (hne : t.msg ≠ s.msg) :
    s.pend = 0 ∧ ∃ a v q, s.input = .write a v :: q ∧ off a = 0x028 := by
  cases h with
  | writes hi hwrite =>
    obtain ⟨hp, ho⟩ := hwrite.msg_changes hne
    exact ⟨hp, _, _, _, hi, ho⟩
  | completes => exact absurd (effect_keeps _ _).msg hne
  | idles => exact absurd rfl hne
  | reads _ hread => cases hread <;> exact absurd rfl hne
  | resets hi => exact absurd hi (hr _)

/-- Settles O54: a result is written by a completion alone, and each completion writes its own results only. -/
theorem onlyNamedWritersChangeState : Obligations.OnlyNamedWritersChangeState := by
  intro s t h hr
  have hmsg := (StepOutcome.of_step h).msg_changes hr
  obtain ⟨q, i, hq, hp, rfl⟩ | e := (StepOutcome.of_step h).completes_or_sameResults hr
  · have hcore : ∃ q, CoreNext s q := ⟨q, hq⟩
    have heff := EffectOutcome.of_effectOf i (s.withInput q)
    rw [hp] at hmsg ⊢
    exact ⟨hmsg, fun hne => ⟨hcore, heff.h_writers hne⟩, fun hne => ⟨hcore, heff.v_writers hne⟩,
      fun hne => ⟨hcore, heff.w_writers hne⟩, fun hne => ⟨hcore, heff.blk_writers hne⟩,
      fun hne => ⟨hcore, heff.dig_writers hne⟩, fun hne => ⟨hcore, heff.pad_writers hne⟩,
      fun _ => ⟨rfl, rfl⟩, (effect_keeps i _).msgCap⟩
  · refine ⟨hmsg, fun hne => absurd e.h hne, fun hne => absurd e.v hne, fun hne => absurd e.w hne,
      fun hne => absurd e.blk hne, fun hne => absurd e.dig hne, fun hne => ?_, fun hne => ?_, e.msgCap⟩
    · simp [e.pad, e.padlen, e.nblk] at hne
    · simp [e.h, e.v, e.w, e.blk, e.dig, e.pad, e.padlen, e.nblk] at hne

end Sys2Proof.Machine
end

section
/-! # Proofs: who writes the index, length, control and status registers (R22, R26, R27, R29, R30, R33, R34, R97, R109) -/

namespace Sys2Proof.Machine

open Sys2Proof.Spec

variable {s t : State}

/-- Two states that agree in the registers that, apart from reset, only a Host write moves. -/
structure SameWritable (s t : State) : Prop where
  msglen : t.msglen = s.msglen
  blksel : t.blksel = s.blksel
  ie : t.ie = s.ie
  err : t.err = s.err
  errcode : t.errcode = s.errcode
  drop : t.drop = s.drop

theorem SameOperands.sameWritable (h : SameOperands s t) : SameWritable s t.finish :=
  ⟨h.msglen, h.blksel, h.ie, h.err, h.errcode, h.drop⟩

theorem ReadOutcome.sameWritable {a : Word} {u : State} (h : ReadOutcome a u t) : SameWritable u t := by
  cases h <;> constructor <;> rfl

theorem ReadOutcome.sameStatus {a : Word} {u : State} (h : ReadOutcome a u t) : t.done = u.done ∧ t.pend = u.pend := by
  cases h <;> exact ⟨rfl, rfl⟩

namespace StepOutcome

/-- A step that moves one of these registers takes a Host write or the reset input. -/
theorem writes_or_resets (h : StepOutcome s t) (hne : ¬SameWritable s t) :
    (∃ a v q, s.input = .write a v :: q ∧ WriteOutcome a v (s.withInput q) t) ∨ ∃ q, s.input = .reset :: q := by
  cases h with
  | writes hi hwrite => exact .inl ⟨_, _, _, hi, hwrite⟩
  | resets hi => exact .inr ⟨_, hi⟩
  | idles => exact absurd ⟨rfl, rfl, rfl, rfl, rfl, rfl⟩ hne
  | completes => exact absurd { (effect_keeps _ _).sameWritable with } hne
  | reads _ hread => exact absurd { hread.sameWritable with } hne

end StepOutcome

/-- Settles O56: DROP moves only at a Host write or reset, and a write moves it in the ways `WriteOutcome` lists. -/
theorem dropRecordsDroppedWrites : Obligations.DropRecordsDroppedWrites := by
  intro s t h
  have hout := StepOutcome.of_step h
  have hmoved (hne : t.drop ≠ s.drop) := hout.writes_or_resets fun e => hne e.drop
  refine ⟨fun hs ht => ?_, fun hs ht => ?_⟩
  · obtain ⟨a, v, q, hi, hw⟩ | ⟨q, hi⟩ := hmoved (by simp [hs, ht])
    · exact ⟨a, v, q, hi, hw.drop_set hs ht⟩
    · rw [step, nextTurn_reset hi] at h
      obtain rfl := Host.Outcome.next.inj h
      cases ht
  · obtain ⟨a, v, q, hi, hw⟩ | hi := hmoved (by simp [hs, ht])
    · exact .inr ⟨a, v, q, hi, hw.drop_cleared hs ht⟩
    · exact .inl hi

/-! ### The registers a write moves, step by step -/

theorem toNat_mod_eq_extractLsb' (x : BitVec 64) : x.toNat % 2 ^ 32 = (x.extractLsb' 0 32).toNat := by
  rw [BitVec.extractLsb'_toNat, Nat.shiftRight_zero]

theorem toNat_div_eq_extractLsb' (x : BitVec 64) : x.toNat / 2 ^ 32 = (x.extractLsb' 32 32).toNat := by
  rw [BitVec.extractLsb'_toNat, Nat.shiftRight_eq_div_pow, Nat.mod_eq_of_lt]
  exact Nat.div_lt_of_lt_mul x.isLt

namespace StepOutcome

variable (h : StepOutcome s t) (hr : ∀ q, s.input ≠ .reset :: q)
include h hr

theorem writes_of_not_same (hne : ¬SameWritable s t) :
    ∃ a v q, s.input = .write a v :: q ∧ WriteOutcome a v (s.withInput q) t :=
  (h.writes_or_resets hne).resolve_right fun ⟨q, hi⟩ => hr q hi

theorem msglenLo_changes (hne : t.msglen.toNat % 2 ^ 32 ≠ s.msglen.toNat % 2 ^ 32) :
    s.pend = 0 ∧ ∃ a v q, s.input = .write a v :: q ∧ off a = 0x010 := by
  obtain ⟨a, v, q, hi, hw⟩ := h.writes_of_not_same hr fun e => hne (by rw [e.msglen])
  rw [toNat_mod_eq_extractLsb', toNat_mod_eq_extractLsb'] at hne
  obtain ⟨hp, ho⟩ := hw.msglenLo_changes (mt (congrArg _) hne)
  exact ⟨hp, a, v, q, hi, ho⟩

theorem msglenHi_changes (hne : t.msglen.toNat / 2 ^ 32 ≠ s.msglen.toNat / 2 ^ 32) :
    s.pend = 0 ∧ ∃ a v q, s.input = .write a v :: q ∧ off a = 0x014 := by
  obtain ⟨a, v, q, hi, hw⟩ := h.writes_of_not_same hr fun e => hne (by rw [e.msglen])
  rw [toNat_div_eq_extractLsb', toNat_div_eq_extractLsb'] at hne
  obtain ⟨hp, ho⟩ := hw.msglenHi_changes (mt (congrArg _) hne)
  exact ⟨hp, a, v, q, hi, ho⟩

theorem blksel_changes (hne : t.blksel ≠ s.blksel) :
    s.pend = 0 ∧ ∃ a v q, s.input = .write a v :: q ∧ off a = 0x018 := by
  obtain ⟨a, v, q, hi, hw⟩ := h.writes_of_not_same hr fun e => hne e.blksel
  obtain ⟨hp, ho⟩ := hw.blksel_changes hne
  exact ⟨hp, a, v, q, hi, ho⟩

theorem msgptr_changes (hne : t.msgptr ≠ s.msgptr) : s.pend = 0 ∧
    ((∃ a v q, s.input = .write a v :: q ∧ (off a = 0x024 ∨ off a = 0x028)) ∨
      ∃ a q, s.input = .read a :: q ∧ off a = 0x028) := by
  cases h with
  | writes hi hwrite =>
    obtain ⟨hp, ho⟩ := hwrite.msgptr_changes hne
    exact ⟨hp, .inl ⟨_, _, _, hi, ho⟩⟩
  | reads hi hread =>
    cases hread with
    | msgdata hp ho => exact ⟨hp, .inr ⟨_, _, hi, ho⟩⟩
    | _ => exact absurd rfl hne
  | idles => exact absurd rfl hne
  | completes => exact absurd (effect_keeps _ _).msgptr hne
  | resets hi => exact absurd hi (hr _)

theorem padptr_changes (hne : t.padptr ≠ s.padptr) : s.pend = 0 ∧
    ((∃ a v q, s.input = .write a v :: q ∧ off a = 0x02C) ∨ ∃ a q, s.input = .read a :: q ∧ off a = 0x030) := by
  cases h with
  | writes hi hwrite =>
    obtain ⟨hp, ho⟩ := hwrite.padptr_changes hne
    exact ⟨hp, .inl ⟨_, _, _, hi, ho⟩⟩
  | reads hi hread =>
    cases hread with
    | paddata hp ho => exact ⟨hp, .inr ⟨_, _, hi, ho⟩⟩
    | _ => exact absurd rfl hne
  | idles => exact absurd rfl hne
  | completes => exact absurd (effect_keeps _ _).padptr hne
  | resets hi => exact absurd hi (hr _)

theorem ie_changes (hne : t.ie ≠ s.ie) :
    ∃ a v q, s.input = .write a v :: q ∧ off a = 0x004 ∧ t.ie = v.getLsbD 0 := by
  obtain ⟨a, v, q, hi, hw⟩ := h.writes_of_not_same hr fun e => hne e.ie
  exact ⟨a, v, q, hi, hw.ie_changes hne⟩

/-- DONE is set and PEND moves from a command in flight at the complete step alone. -/
theorem completes_or_keeps : ((∃ q, CoreNext s q) ∧ s.pend ≠ 0 ∧ t.pend = 0 ∧ t.done = true) ∨
    (t.done = s.done ∧ t.pend = s.pend) ∨
    ∃ a v q, s.input = .write a v :: q ∧ WriteOutcome a v (s.withInput q) t := by
  cases h with
  | completes hq hp => exact .inl ⟨⟨_, hq⟩, fun h0 => opcodeOf_ne_zero _ (hp.symm.trans h0), rfl, rfl⟩
  | idles => exact .inr (.inl ⟨rfl, rfl⟩)
  | reads _ hread => exact .inr (.inl hread.sameStatus)
  | writes hi hwrite => exact .inr (.inr ⟨_, _, _, hi, hwrite⟩)
  | resets hi => exact absurd hi (hr _)

theorem done_set (hs : s.done = false) (ht : t.done = true) : (∃ q, CoreNext s q) ∧ s.pend ≠ 0 ∧ t.pend = 0 := by
  obtain ⟨hq, hp, hp', -⟩ | ⟨e, -⟩ | ⟨a, v, q, -, hw⟩ := h.completes_or_keeps hr
  · exact ⟨hq, hp, hp'⟩
  · simp [e, hs] at ht
  · exact absurd (hs.symm.trans (hw.done_of_done ht)) (by decide)

theorem done_cleared (hs : s.done = true) (ht : t.done = false) : ∃ a v q, s.input = .write a v :: q ∧
    ((off a = 0x008 ∧ v.getLsbD 1 = true) ∨ (off a = 0x00C ∧ s.pend = 0 ∧ s.err = false)) := by
  obtain ⟨-, -, -, hd⟩ | ⟨e, -⟩ | ⟨a, v, q, hi, hw⟩ := h.completes_or_keeps hr
  · simp [hd] at ht
  · simp [e, hs] at ht
  · exact ⟨a, v, q, hi, hw.done_cleared hs ht⟩

theorem err_set (hs : s.err = false) (ht : t.err = true) :
    s.pend = 0 ∧ ∃ a v q, s.input = .write a v :: q ∧ off a = 0x00C := by
  obtain ⟨a, v, q, hi, hw⟩ := h.writes_of_not_same hr fun e => by simp [e.err, hs] at ht
  obtain ⟨hp, ho⟩ := hw.err_set hs ht
  exact ⟨hp, a, v, q, hi, ho⟩

theorem err_cleared (hs : s.err = true) (ht : t.err = false) :
    ∃ a v q, s.input = .write a v :: q ∧ off a = 0x008 ∧ v.getLsbD 2 = true := by
  obtain ⟨a, v, q, hi, hw⟩ := h.writes_of_not_same hr fun e => by simp [e.err, hs] at ht
  exact ⟨a, v, q, hi, hw.err_cleared hs ht⟩

theorem errcode_changes (hne : t.errcode ≠ s.errcode) : ∃ a v q, s.input = .write a v :: q ∧
    ((off a = 0x008 ∧ v.getLsbD 2 = true) ∨ (off a = 0x00C ∧ s.pend = 0 ∧ s.err = false ∧ t.err = true)) := by
  obtain ⟨a, v, q, hi, hw⟩ := h.writes_of_not_same hr fun e => hne e.errcode
  exact ⟨a, v, q, hi, hw.errcode_changes hne⟩

theorem pend_set (hs : s.pend = 0) (ht : t.pend ≠ 0) :
    s.err = false ∧ ∃ a v q, s.input = .write a v :: q ∧ off a = 0x00C := by
  obtain ⟨-, hp, -⟩ | ⟨-, e⟩ | ⟨a, v, q, hi, hw⟩ := h.completes_or_keeps hr
  · exact absurd hs hp
  · exact absurd (e.trans hs) ht
  · obtain ⟨-, he, ho⟩ := hw.pend_changes fun e => ht (e.trans hs)
    exact ⟨he, a, v, q, hi, ho⟩

theorem pend_cleared (hs : s.pend ≠ 0) (hne : t.pend ≠ s.pend) : (∃ q, CoreNext s q) ∧ t.pend = 0 := by
  obtain ⟨hq, -, hp', -⟩ | ⟨-, e⟩ | ⟨a, v, q, -, hw⟩ := h.completes_or_keeps hr
  · exact ⟨hq, hp'⟩
  · exact absurd e hne
  · exact absurd (hw.pend_changes hne).1 hs

theorem drop_changes (hne : t.drop ≠ s.drop) : ∃ a v q, s.input = .write a v :: q := by
  obtain ⟨a, v, q, hi, -⟩ := h.writes_of_not_same hr fun e => hne e.drop
  exact ⟨a, v, q, hi⟩

end StepOutcome

/-- Settles O58, register by register. -/
theorem onlyNamedWritersChangeControl : Obligations.OnlyNamedWritersChangeControl := by
  intro s t hstep hr
  have h := StepOutcome.of_step hstep
  exact ⟨h.msglenLo_changes hr, h.msglenHi_changes hr, h.blksel_changes hr, h.msgptr_changes hr, h.padptr_changes hr,
    h.ie_changes hr, h.done_set hr, h.done_cleared hr, h.err_set hr, h.err_cleared hr, h.errcode_changes hr,
    h.pend_set hr, h.pend_cleared hr, h.drop_changes hr⟩

end Sys2Proof.Machine
end

section
/-! # Proofs: the bytes of a bus word (R11, R42) -/

namespace Sys2Proof.Machine

theorem be32_eq_append (b0 b1 b2 b3 : Byte) : be32 b0 b1 b2 b3 = b0 ++ b1 ++ b2 ++ b3 := by
  have h := BitVec.setWidth_append_append_append_eq_shiftLeft_setWidth_or (w'''' := 32) (b := b0) (b' := b1)
    (b'' := b2) (b''' := b3)
  rw [BitVec.setWidth_eq] at h
  exact h.symm

/-- The four bytes of a word, one after the other, are the word. -/
theorem append_bytes (v : Word) :
    v.extractLsb' 24 8 ++ v.extractLsb' 16 8 ++ v.extractLsb' 8 8 ++ v.extractLsb' 0 8 = v := by
  calc
    _ = v.extractLsb' 16 16 ++ v.extractLsb' 8 8 ++ v.extractLsb' 0 8 := by
      rw [BitVec.extractLsb'_append_extractLsb'_eq_extractLsb' (start₁ := 16) (len₁ := 8) rfl]
    _ = v.extractLsb' 8 24 ++ v.extractLsb' 0 8 := by
      rw [BitVec.extractLsb'_append_extractLsb'_eq_extractLsb' (start₁ := 8) (len₁ := 8) rfl]
    _ = v := BitVec.extractLsb'_append_extractLsb'

theorem be32List_wordBytes (v : Word) : be32List (wordBytes v) 0 = v :=
  (be32_eq_append _ _ _ _).trans (append_bytes v)

theorem wordBytes_append (b0 b1 b2 b3 : Byte) : wordBytes (b0 ++ b1 ++ b2 ++ b3) = [b0, b1, b2, b3] := by
  simp (disch := decide) only [wordBytes, BitVec.extractLsb'_append_eq_of_le,
    BitVec.extractLsb'_append_eq_of_add_le, BitVec.extractLsb'_eq_self, -Nat.reduceAdd, Nat.reduceSub]

/-- Byte `j` of a word in arithmetic: the word shifted down to it, modulo 256. -/
theorem wordBytes_getElem? (v : Word) {j : Nat} (hj : j < 4) :
    (wordBytes v)[j]? = some (BitVec.ofNat 8 (v.toNat / 2 ^ (8 * (3 - j)) % 256)) := by
  have hbyte (k : Nat) : v.extractLsb' k 8 = BitVec.ofNat 8 (v.toNat / 2 ^ k % 256) := by
    refine BitVec.eq_of_toNat_eq ?_
    rw [BitVec.extractLsb'_toNat, BitVec.toNat_ofNat, Nat.shiftRight_eq_div_pow, Nat.mod_mod]
  match j, hj with
  | 0, _ | 1, _ | 2, _ | 3, _ => exact congrArg some (hbyte _)

/-- Settles O31, both ways through the concatenation of the four bytes. -/
theorem busWordsAreBigEndian : Obligations.BusWordsAreBigEndian :=
  ⟨be32List_wordBytes, fun b0 b1 b2 b3 =>
    ⟨be32_eq_append b0 b1 b2 b3, by rw [be32_eq_append, wordBytes_append]⟩⟩

end Sys2Proof.Machine
end

section
/-! # Proofs: what a Host read answers (R38, R40, R49) -/

namespace Sys2Proof.Machine

open Sys2Proof.Spec

variable {s : State} {a : Word}

/-! ### The reference reading of the window, register by register -/

/-- STATUS as a number: each field weighs its place. -/
theorem statusWord_eq_ofNat (s : State) :
    statusWord s = BitVec.ofNat 32 (s.errcode.toNat * 256 + s.drop.toNat * 8 + s.err.toNat * 4 + s.done.toNat * 2 +
      (if s.pend = 0 then 0 else 1)) := by
  have hbusy : (if s.pend = 0 then 0 else 1) = s.busy.toNat := by
    by_cases hp : s.pend = 0
    · rw [if_pos hp, busy_eq_false.2 hp, Bool.toNat_false]
    · rw [if_neg hp, busy_eq_true.2 hp, Bool.toNat_true]
  rw [hbusy, statusWord]
  generalize s.errcode = e, s.drop = d, s.err = r, s.done = n, s.busy = b
  decide +revert

theorem vector_getD_eq_toList_getD {α : Type} {n : Nat} (xs : Vector α n) (k : Nat) (d : α) :
    xs.getD k d = xs.toList.getD k d := by
  simp [Vector.getD]

theorem be32Vec_eq_wordAt {n : Nat} (buf : Vector Byte n) (i : Nat) : be32Vec buf i = wordAt buf.toList i := by
  simp only [be32Vec, be32_eq_append, vector_getD_eq_toList_getD, wordAt]

theorem fiveGet_eq_getD (f : Five) (i : Fin 5) : fiveGet f i = [f.x0, f.x1, f.x2, f.x3, f.x4].getD i.val 0 := by
  match i with
  | 0 | 1 | 2 | 3 | 4 => rfl

theorem readValue_regOffset (s : State) {r : Reg} (hmsg : r ≠ .msgdata) (hpad : r ≠ .paddata) :
    readValue s (regOffset r) = regValue s r := by
  cases r with
  | msgdata => exact absurd rfl hmsg
  | paddata => exact absurd rfl hpad
  | ctrl => cases h : s.ie <;> simp [readValue, regOffset, regValue, ctrlWord, bitWord, h]
  | status => exact (statusWord_eq_ofNat s).symm
  | msglenLo => exact BitVec.eq_of_toNat_eq (by simp [readValue, regOffset, regValue])
  | msglenHi => exact BitVec.eq_of_toNat_eq (by simp [readValue, regOffset, regValue, Nat.shiftRight_eq_div_pow])
  | h i | v i | blkw k | w k | digw k =>
    simp (disch := omega) only [readValue, regOffset, regValue, if_neg, if_pos, Nat.add_sub_cancel_left,
      Nat.mul_div_cancel_left, fiveGet_eq_getD, be32Vec_eq_wordAt, vector_getD_eq_toList_getD]
  | _ => rfl

theorem readValue_of_reservedOffset (s : State) {n : Nat} (h : reservedOffset n) : readValue s n = 0 := by
  unfold reservedOffset at h
  unfold readValue
  simp (disch := omega) only [if_neg]

theorem resultOffset_regOffset_iff {r : Reg} : resultOffset (regOffset r) ↔ isResult r = true := by
  unfold resultOffset
  cases r with
  | padlen | nblk | msgdata | paddata | h _ | v _ | blkw _ | w _ | digw _ =>
    exact iff_of_true (by simp [regOffset] <;> omega) rfl
  | _ => exact iff_of_false (by simp [regOffset]) Bool.false_ne_true

theorem not_resultOffset_of_reservedOffset {n : Nat} (h : reservedOffset n) : ¬resultOffset n := by
  unfold reservedOffset at h
  unfold resultOffset
  omega

/-! ### The answers -/

theorem hostRead_reserved (h : regAt (offsetOf a) = none) : hostRead a s = s.reply 0 := by
  rw [hostRead, h]

/-- While a command runs a result reads as a draw (R49). -/
theorem hostRead_busy_result {r : Reg} (hr : regAt (offsetOf a) = some r) (hp : s.pend ≠ 0)
    (hres : isResult r = true) : hostRead a s = drawRead s := by
  simp only [hostRead, hr, busy_eq_true.2 hp, hres, Bool.and_self, if_true]

/-- A register that is no data port, read while it is not a draw, answers its value. -/
theorem hostRead_regValue {r : Reg} (hr : regAt (offsetOf a) = some r) (hexact : (s.busy && isResult r) = false)
    (hmsg : r ≠ .msgdata) (hpad : r ≠ .paddata) : hostRead a s = s.reply (regValue s r) := by
  simp only [hostRead, hr, hexact, Bool.false_eq_true, if_false]

theorem hostRead_msgdata (ho : off a = 0x028) (hp : s.pend = 0) : hostRead a s = msgDataRead s := by
  have hr : regAt (offsetOf a) = some .msgdata := regAt_offsetOf_eq_some_iff.2 ho
  simp only [hostRead, hr, busy_eq_false.2 hp, Bool.false_and, Bool.false_eq_true, if_false]

theorem hostRead_paddata (ho : off a = 0x030) (hp : s.pend = 0) : hostRead a s = padDataRead s := by
  have hr : regAt (offsetOf a) = some .paddata := regAt_offsetOf_eq_some_iff.2 ho
  simp only [hostRead, hr, busy_eq_false.2 hp, Bool.false_and, Bool.false_eq_true, if_false]

theorem hostRead_draw (hp : s.pend ≠ 0) (hres : resultOffset (off a)) : hostRead a s = drawRead s := by
  cases hr : regAt (offsetOf a) with
  | none => exact absurd hres (not_resultOffset_of_reservedOffset (regAt_offsetOf_eq_none_iff.1 hr))
  | some r =>
    rw [regAt_offsetOf_eq_some_iff.1 hr, resultOffset_regOffset_iff] at hres
    exact hostRead_busy_result hr hp hres

/-- Every read that is neither a draw nor an access to a data port. -/
theorem hostRead_exact (h : resultOffset (off a) → s.pend = 0 ∧ off a ≠ 0x028 ∧ off a ≠ 0x030) :
    hostRead a s = s.reply (readValue s (off a)) := by
  cases hr : regAt (offsetOf a) with
  | none => rw [hostRead_reserved hr, readValue_of_reservedOffset s (regAt_offsetOf_eq_none_iff.1 hr)]
  | some r =>
    have ho := regAt_offsetOf_eq_some_iff.1 hr
    rw [ho, resultOffset_regOffset_iff] at h
    have hmsg : r ≠ .msgdata := by
      rintro rfl
      exact (h rfl).2.1 rfl
    have hpad : r ≠ .paddata := by
      rintro rfl
      exact (h rfl).2.2 rfl
    have hexact : (s.busy && isResult r) = false := by
      cases hres : isResult r with
      | false => exact Bool.and_false _
      | true => rw [busy_eq_false.2 (h hres).1, Bool.false_and]
    rw [hostRead_regValue hr hexact hmsg hpad, ho, readValue_regOffset s hmsg hpad]

/-- Settles O33: a result is drawn, and no other read is a draw or a port access. -/
theorem busyReadsOfResultsAreDraws : Obligations.BusyReadsOfResultsAreDraws := fun s _ q hi hp =>
  ⟨fun hres => (step_read hi).trans (congrArg _ (hostRead_draw (s := s.withInput q) hp hres)),
    fun hres => (step_read hi).trans (congrArg _ (hostRead_exact fun h => absurd h hres))⟩

/-- Settles O34: with BUSY = 0 no read but that of a port is anything but exact. -/
theorem idleReadsReturnRegisters : Obligations.IdleReadsReturnRegisters := fun s _ q hi hp hmsg hpad =>
  (step_read hi).trans (congrArg _ (hostRead_exact (s := s.withInput q) fun _ => ⟨hp, hmsg, hpad⟩))

theorem hostRead_congr {a' : Word} (s : State) (h : offsetOf a = offsetOf a') : hostRead a s = hostRead a' s := by
  rw [hostRead, hostRead, h]

theorem hostWrite_congr {a' : Word} (v : Word) (s : State) (h : offsetOf a = offsetOf a') :
    hostWrite a v s = hostWrite a' v s := by
  rw [hostWrite, hostWrite, h]

/-- Settles O42: both accesses use an address for its offset alone. -/
theorem addressBitsOutsideWindowIgnored : Obligations.AddressBitsOutsideWindowIgnored := by
  intro s a a' v q h
  have hoff : offsetOf a = offsetOf a' := congrArg (·.toNat * 4) h
  refine ⟨?_, ?_⟩
  · rw [step_read rfl, step_read rfl, hostRead_congr _ hoff]
    rfl
  · rw [step, step, nextTurn_write rfl, nextTurn_write rfl, hostWrite_congr v _ hoff]
    rfl

end Sys2Proof.Machine
end

section
/-! # Proofs: what a Host write does, offset by offset (R39, R48, R97) -/

namespace Sys2Proof.Machine

open Sys2Proof.Spec

variable {s t : State} {a v : Word} {q : List Input}

/-- Settles O1: with BUSY = 0 a CMD write of a legal word is its command's meaning. -/
theorem stepRunsPresentedCommand : Obligations.StepRunsPresentedCommand := by
  intro s a v q i hi ho hp hd
  have hr : regAt (offsetOf a) = some .cmd := regAt_offsetOf_eq_some_iff.2 ho
  have hidle : (s.withInput q).busy = false := busy_eq_false.2 hp
  have hw : hostWrite a v (s.withInput q) = .command i (s.withInput q) := by
    rw [hostWrite_idle a v hidle, hr, idleWrite, commandWrite, hd]
  rw [step, nextTurn_write hi, hw]
  rfl

theorem step_write_ctrl (hi : s.input = .write a v :: q) (ho : off a = 0x004) :
    step s = .next { s with input := q, ie := v.getLsbD 0 } :=
  step_write_of_quiet hi (hostWrite_ctrl v _ (regAt_offsetOf_eq_some_iff.2 ho))

theorem step_write_status (hi : s.input = .write a v :: q) (ho : off a = 0x008) :
    step s = .next
      { s with input := q, done := s.done && !v.getLsbD 1, err := s.err && !v.getLsbD 2,
               drop := s.drop && !v.getLsbD 3, errcode := if v.getLsbD 2 then 0 else s.errcode } := by
  have hw := hostWrite_status v (s.withInput q) (regAt_offsetOf_eq_some_iff.2 ho)
  rw [statusWrite_eq] at hw
  exact step_write_of_quiet hi hw

theorem step_write_busy (hi : s.input = .write a v :: q) (hp : s.pend ≠ 0) (hctrl : off a ≠ 0x004)
    (hstatus : off a ≠ 0x008) : step s = .next { s with input := q, drop := true } :=
  step_write_of_quiet hi (hostWrite_busy v (busy_eq_true.2 hp) (mt regAt_offsetOf_eq_some_iff.1 hctrl)
    (mt regAt_offsetOf_eq_some_iff.1 hstatus))

/-- Settles O32: the two registers a write reaches while BUSY = 1, and all the rest. -/
theorem busyWritesAreDropped : Obligations.BusyWritesAreDropped := fun _ _ _ _ hi hp =>
  ⟨step_write_busy hi hp, step_write_ctrl hi, step_write_status hi⟩

/-- The mask of R33 and R34 rounds down to a multiple of 4. -/
theorem masked_eq_ofNat (v : Word) : v &&& 0xFFFFFFFC = BitVec.ofNat 32 (v.toNat / 4 * 4) := by
  have hmask : (0xFFFFFFFC : Word) = BitVec.allOnes 32 <<< 2 := by decide
  refine BitVec.eq_of_toNat_eq ?_
  rw [hmask, ← BitVec.shiftLeft_ushiftRight, BitVec.toNat_shiftLeft, BitVec.toNat_ushiftRight, BitVec.toNat_ofNat,
    Nat.shiftLeft_eq, Nat.shiftRight_eq_div_pow]

/-- Two words as one number, the first the upper half (R29). -/
theorem append_eq_ofNat (x y : Word) : x ++ y = BitVec.ofNat 64 (x.toNat * 2 ^ 32 + y.toNat) := by
  refine BitVec.eq_of_toNat_eq ?_
  have := x.isLt
  have := y.isLt
  rw [BitVec.toNat_append, ← Nat.shiftLeft_add_eq_or_of_lt y.isLt, Nat.shiftLeft_eq, BitVec.toNat_ofNat,
    Nat.mod_eq_of_lt (by omega)]

/-- Settles O35: the writable registers one by one; every other offset takes no write. -/
theorem idleWritesSetRegisters : Obligations.IdleWritesSetRegisters := by
  intro s a v q hi hp hcmd hmsg
  cases hr : regAt (offsetOf a) with
  | none =>
    have hres := regAt_offsetOf_eq_none_iff.1 hr
    unfold reservedOffset at hres
    refine ⟨_, step_write_of_idleWrite hi hp (by rw [hr]; rfl), ?_⟩
    simp (disch := omega) only [if_neg]
    rfl
  | some r =>
    have ho := regAt_offsetOf_eq_some_iff.1 hr
    have hstep {t : State} (hw : idleWrite (some r) v (s.withInput q) = .quiet t) : step s = .next t :=
      step_write_of_idleWrite hi hp (hr ▸ hw)
    cases r with
    | cmd => exact absurd ho hcmd
    | msgdata => exact absurd ho hmsg
    | ctrl => exact ⟨_, step_write_ctrl hi ho, (if_pos ho).symm⟩
    | status => exact ⟨_, step_write_status hi ho, by rw [ho]; rfl⟩
    | msglenLo => exact ⟨_, hstep rfl, by rw [ho, toNat_div_eq_extractLsb', ← append_eq_ofNat]; rfl⟩
    | msglenHi => exact ⟨_, hstep rfl, by rw [ho, toNat_mod_eq_extractLsb', ← append_eq_ofNat]; rfl⟩
    | blksel => exact ⟨_, hstep rfl, by rw [ho]; rfl⟩
    | msgptr | padptr => exact ⟨_, hstep rfl, by rw [ho, ← masked_eq_ofNat]; rfl⟩
    | _ =>
      refine ⟨_, hstep rfl, ?_⟩
      simp only [regOffset] at ho
      simp (disch := omega) only [if_neg]
      rfl

end Sys2Proof.Machine
end

section
/-! # Proofs: the data ports (R45, R46, R47) -/

namespace Sys2Proof.Machine

open Sys2Proof.Spec

variable {s t : State} {a v : Word} {q : List Input}

/-- A port pointer moves on by one word, modulo 2^32. -/
theorem add_four_toNat (x : Word) : (x + 4).toNat = (x.toNat + 4) % 2 ^ 32 := BitVec.toNat_add x 4

theorem add_four_ne (x : Word) : x + 4 ≠ x := by
  bv_omega

/-- The word a port answers: four bytes in order, each as it was written where it was written. -/
theorem be32List_memRead (m : Memory) (i d : Nat) :
    ∃ c : Fin 4 → Byte, be32List (memRead m i 4 d).1 0 = c 0 ++ c 1 ++ c 2 ++ c 3 ∧
      ∀ (j : Fin 4) (b : Byte), memGet m (i + j.val) = some b → c j = b := by
  refine ⟨fun j => (memRead m i 4 d).1.getD j 0, be32_eq_append _ _ _ _, fun j b hb => ?_⟩
  have hread := memRead_written m i 4 d j b j.isLt hb
  simp only [List.getD_eq_getElem?_getD, hread, Option.getD_some]

/-! ### The ports with BUSY = 0, in range and out of range -/

theorem msgDataWrite_inRange (v : Word) (h : s.msgptr.toNat + 4 ≤ s.msgCap) :
    msgDataWrite v s = advanceMsgptr (s.setMsg (memWrite s.msg s.msgptr.toNat (wordBytes v))) := if_pos h

theorem msgDataWrite_outOfRange (v : Word) (h : s.msgCap < s.msgptr.toNat + 4) :
    msgDataWrite v s = advanceMsgptr s.dropWrite := if_neg (by omega)

theorem msgDataRead_inRange (h : s.msgptr.toNat + 4 ≤ s.msgCap) :
    msgDataRead s = advanceMsgptr ((s.reply (be32List (memRead s.msg s.msgptr.toNat 4 s.draws).1 0)).withDraws
      (memRead s.msg s.msgptr.toNat 4 s.draws).2) := if_pos h

theorem msgDataRead_outOfRange (h : s.msgCap < s.msgptr.toNat + 4) :
    msgDataRead s = advanceMsgptr (s.reply 0) := if_neg (by omega)

theorem padDataRead_inRange (h : s.padptr.toNat + 4 ≤ s.padlen.toNat) :
    padDataRead s = advancePadptr ((s.reply (be32List (memRead s.pad s.padptr.toNat 4 s.draws).1 0)).withDraws
      (memRead s.pad s.padptr.toNat 4 s.draws).2) := if_pos h

theorem padDataRead_outOfRange (h : s.padlen.toNat < s.padptr.toNat + 4) :
    padDataRead s = advancePadptr (s.reply 0) := if_neg (by omega)

/-- In range or not, a MSGDATA write moves MSGPTR on. -/
theorem msgDataWrite_msgptr (v : Word) (s : State) : (msgDataWrite v s).msgptr = s.msgptr + 4 := by
  unfold msgDataWrite
  split <;> rfl

/-- What a MSGDATA read leaves, whatever it answers. -/
theorem msgDataRead_shape (s : State) :
    ∃ x d, msgDataRead s = { s with readData := x, draws := d, msgptr := s.msgptr + 4 } := by
  unfold msgDataRead
  split <;> exact ⟨_, _, rfl⟩

/-- What a PADDATA read leaves, whatever it answers. -/
theorem padDataRead_shape (s : State) :
    ∃ x d, padDataRead s = { s with readData := x, draws := d, padptr := s.padptr + 4 } := by
  unfold padDataRead
  split <;> exact ⟨_, _, rfl⟩

theorem msgDataRead_answer (s : State) :
    (s.msgCap < s.msgptr.toNat + 4 → (msgDataRead s).readData = some 0) ∧
    (s.msgptr.toNat + 4 ≤ s.msgCap → ∃ c : Fin 4 → Byte,
      (msgDataRead s).readData = some (c 0 ++ c 1 ++ c 2 ++ c 3) ∧
        ∀ (j : Fin 4) (b : Byte), memGet s.msg (s.msgptr.toNat + j.val) = some b → c j = b) := by
  refine ⟨fun h => by rw [msgDataRead_outOfRange h]; rfl, fun h => ?_⟩
  obtain ⟨c, hc, hb⟩ := be32List_memRead s.msg s.msgptr.toNat s.draws
  exact ⟨c, by rw [msgDataRead_inRange h, ← hc]; rfl, hb⟩

theorem padDataRead_answer (s : State) :
    (s.padlen.toNat < s.padptr.toNat + 4 → (padDataRead s).readData = some 0) ∧
    (s.padptr.toNat + 4 ≤ s.padlen.toNat → ∃ c : Fin 4 → Byte,
      (padDataRead s).readData = some (c 0 ++ c 1 ++ c 2 ++ c 3) ∧
        ∀ (j : Fin 4) (b : Byte), memGet s.pad (s.padptr.toNat + j.val) = some b → c j = b) := by
  refine ⟨fun h => by rw [padDataRead_outOfRange h]; rfl, fun h => ?_⟩
  obtain ⟨c, hc, hb⟩ := be32List_memRead s.pad s.padptr.toNat s.draws
  exact ⟨c, by rw [padDataRead_inRange h, ← hc]; rfl, hb⟩

/-! ### Accesses to the ports as steps -/

theorem step_write_msgdata (hi : s.input = .write a v :: q) (hp : s.pend = 0) (ho : off a = 0x028) :
    step s = .next (msgDataWrite v (s.withInput q)) := by
  have hr : regAt (offsetOf a) = some .msgdata := regAt_offsetOf_eq_some_iff.2 ho
  exact step_write_of_idleWrite hi hp (by rw [hr]; rfl)

theorem step_read_msgdata (hi : s.input = .read a :: q) (hp : s.pend = 0) (ho : off a = 0x028) :
    step s = .next (msgDataRead (s.withInput q)) :=
  (step_read hi).trans (congrArg _ (hostRead_msgdata ho hp))

theorem step_read_paddata (hi : s.input = .read a :: q) (hp : s.pend = 0) (ho : off a = 0x030) :
    step s = .next (padDataRead (s.withInput q)) :=
  (step_read hi).trans (congrArg _ (hostRead_paddata ho hp))

/-- A read while a command runs moves neither pointer. -/
theorem hostRead_busy_shape (a : Word) (hp : s.pend ≠ 0) :
    ∃ x d, hostRead a s = { s with readData := x, draws := d } := by
  obtain ⟨x, d, m, p, e, hm, hpad⟩ := hostRead_shape a s
  obtain rfl : m = s.msgptr := hm.resolve_right fun h => hp h.2
  obtain rfl : p = s.padptr := hpad.resolve_right fun h => hp h.2
  exact ⟨x, d, e⟩

/-- Only a read of MSGDATA with BUSY = 0 moves MSGPTR. -/
theorem hostRead_moves_msgptr_iff (a : Word) (s : State) :
    (hostRead a s).msgptr ≠ s.msgptr ↔ off a = 0x028 ∧ s.pend = 0 := by
  refine ⟨fun hne => ?_, fun ⟨ho, hp⟩ => ?_⟩
  · have h := ReadOutcome.of_hostRead a s
    generalize hostRead a s = t at h hne
    cases h with
    | msgdata hp ho => exact ⟨ho, hp⟩
    | _ => exact absurd rfl hne
  · obtain ⟨x, d, e⟩ := msgDataRead_shape s
    rw [hostRead_msgdata ho hp, e]
    exact add_four_ne s.msgptr

/-- Only a read of PADDATA with BUSY = 0 moves PADPTR. -/
theorem hostRead_moves_padptr_iff (a : Word) (s : State) :
    (hostRead a s).padptr ≠ s.padptr ↔ off a = 0x030 ∧ s.pend = 0 := by
  refine ⟨fun hne => ?_, fun ⟨ho, hp⟩ => ?_⟩
  · have h := ReadOutcome.of_hostRead a s
    generalize hostRead a s = t at h hne
    cases h with
    | paddata hp ho => exact ⟨ho, hp⟩
    | _ => exact absurd rfl hne
  · obtain ⟨x, d, e⟩ := padDataRead_shape s
    rw [hostRead_paddata ho hp, e]
    exact add_four_ne s.padptr

/-- Settles O43: a read moves the pointer of the port it reads, and no other read moves one. -/
theorem readSideEffects : Obligations.ReadSideEffects := by
  intro s a q hi
  refine ⟨_, step_read hi, ?_, hostRead_moves_msgptr_iff a (s.withInput q),
    hostRead_moves_padptr_iff a (s.withInput q)⟩
  obtain ⟨x, d, m, p, e, -, -⟩ := hostRead_shape a (s.withInput q)
  rw [e]
  rfl

/-- Settles O36: the four accesses, by `msgDataWrite`, `msgDataRead` and what a command in flight leaves of them. -/
theorem msgDataPort : Obligations.MsgDataPort := by
  refine ⟨fun s a v q hi hp ho => ?_, fun s a q hi hp ho => ?_, fun s a v q hi hp ho => ?_, fun s a q hi hp ho => ?_⟩
  · refine ⟨_, step_write_msgdata hi hp ho, ?_, fun hin => ?_, fun hout => ?_⟩
    · rw [msgDataWrite_msgptr, add_four_toNat, State.withInput_msgptr]
    · have hstored : msgDataWrite v (s.withInput q) = _ := msgDataWrite_inRange v hin
      rw [hstored]
      exact ⟨rfl, fun j hj => (memGet_memWrite_inside _ _ (wordBytes v) j hj).trans (wordBytes_getElem? v hj),
        fun i hi => memGet_memWrite_outside _ _ (wordBytes v) i hi⟩
    · have hdropped : msgDataWrite v (s.withInput q) = _ := msgDataWrite_outOfRange v hout
      rw [hdropped]
      rfl
  · obtain ⟨x, d, e⟩ := msgDataRead_shape (s.withInput q)
    refine ⟨_, step_read_msgdata hi hp ho, ?_, ?_, msgDataRead_answer (s.withInput q)⟩
    · rw [e]; exact add_four_toNat s.msgptr
    · rw [e]; rfl
  · exact step_write_busy hi hp (by omega) (by omega)
  · obtain ⟨x, d, e⟩ := hostRead_busy_shape (s := s.withInput q) a hp
    exact ⟨_, step_read hi, by rw [e]; rfl, by rw [e]; rfl⟩

/-- PADPTR moves in words and PADLEN in blocks, so a read from below PADLEN ends there at the latest (R46). -/
theorem Invariant.padptr_not_straddling (h : Invariant s) (hlt : s.padptr.toNat < s.padlen.toNat) :
    s.padptr.toNat + 4 ≤ s.padlen.toNat := by
  have hptr := h.padptrAligned
  have hlen := h.padlenBlocks
  omega

/-- Settles O38: the accesses of MSGDATA's kind, and the alignment that the invariant gives. -/
theorem padDataPort : Obligations.PadDataPort := by
  refine ⟨fun s a q hi hp ho => ?_, fun s h => h.padptr_not_straddling, fun s a v q hi hp ho => ?_,
    fun s a q hi hp ho => ?_⟩
  · obtain ⟨x, d, e⟩ := padDataRead_shape (s.withInput q)
    refine ⟨_, step_read_paddata hi hp ho, ?_, ?_, padDataRead_answer (s.withInput q)⟩
    · rw [e]; exact add_four_toNat s.padptr
    · rw [e]; rfl
  · have hro : readOnlyOffset (off a) := by
      unfold readOnlyOffset
      omega
    exact step_write_of_idleWrite hi hp (idleWrite_reservedOrReadOnly v _ (.inr hro))
  · obtain ⟨x, d, e⟩ := hostRead_busy_shape (s := s.withInput q) a hp
    exact ⟨_, step_read hi, by rw [e]; rfl⟩

/-! ### A word written reads back -/

theorem run_succ_of_step (k : Nat) (h : step s = .next t) : Host.Core.run core (k + 1) s = Host.Core.run core k t := by
  have hcore : core.step s = .next t := h
  simp only [Host.Core.run, hcore]

theorem step_write_msgptr (hi : s.input = .write a v :: q) (hp : s.pend = 0) (ho : off a = 0x024) :
    step s = .next ((s.withInput q).setMsgptr (v &&& 0xFFFFFFFC)) := by
  have hr : regAt (offsetOf a) = some .msgptr := regAt_offsetOf_eq_some_iff.2 ho
  exact step_write_of_idleWrite hi hp (by rw [hr]; rfl)

/-- A value that differs from an aligned pointer in bits 1:0 alone sets that pointer (R33). -/
theorem masked_eq_of_aligned {p x : Word} (hx : x.toNat % 4 = 0) (h : p.toNat / 4 = x.toNat / 4) :
    p &&& 0xFFFFFFFC = x := by
  rw [masked_eq_ofNat, h, Nat.div_mul_cancel (Nat.dvd_of_mod_eq_zero hx), BitVec.ofNat_toNat, BitVec.setWidth_eq]

/-- Where MSG holds the bytes of a word at MSGPTR, that word is read. -/
theorem msgDataRead_of_wordBytes (h : s.msgptr.toNat + 4 ≤ s.msgCap)
    (hm : ∀ j, j < (wordBytes v).length → memGet s.msg (s.msgptr.toNat + j) = (wordBytes v)[j]?) :
    (msgDataRead s).readData = some v := by
  have hread : memRead s.msg s.msgptr.toNat 4 s.draws = (wordBytes v, s.draws) := memRead_all_written _ _ _ _ hm
  rw [msgDataRead_inRange h, hread, be32List_wordBytes]
  rfl

/-- Once MSGPTR is set, a MSGDATA read answers the word whose bytes MSG holds there: two steps. -/
theorem run_setMsgptr_read {a' p : Word} (hi : s.input = .write a p :: .read a' :: q) (ho : off a = 0x024)
    (ho' : off a' = 0x028) (hp : s.pend = 0) (hin : (p &&& 0xFFFFFFFC).toNat + 4 ≤ s.msgCap)
    (hm : ∀ j, j < (wordBytes v).length → memGet s.msg ((p &&& 0xFFFFFFFC).toNat + j) = (wordBytes v)[j]?) :
    ∃ t, Host.Core.run core 2 s = .next t ∧ t.readData = some v := by
  have hset := step_write_msgptr hi hp ho
  have hload : step ((s.withInput (.read a' :: q)).setMsgptr (p &&& 0xFFFFFFFC)) = _ :=
    step_read_msgdata (q := q) rfl hp ho'
  exact ⟨_, (run_succ_of_step 1 hset).trans (run_succ_of_step 0 hload), msgDataRead_of_wordBytes hin hm⟩

/-- Settles O39: the second write puts MSGPTR back where the first one stored its bytes. -/
theorem msgDataReadsBackWrite : Obligations.MsgDataReadsBackWrite := by
  intro s a a' a'' v p q hi ho ho' ho'' hp haligned hword hin
  have hptr := masked_eq_of_aligned haligned hword
  have hstore := (step_write_msgdata hi hp ho).trans (congrArg _ (msgDataWrite_inRange v hin))
  rw [run_succ_of_step 2 hstore]
  refine run_setMsgptr_read (p := p) rfl ho' ho'' hp (by rw [hptr]; exact hin) fun j hj => ?_
  rw [hptr]
  exact memGet_memWrite_inside s.msg s.msgptr.toNat (wordBytes v) j hj

end Sys2Proof.Machine
end

section
/-! # Proofs: the operands of the command in flight (R48, R95) -/

namespace Sys2Proof.Machine

open Sys2Proof.Spec

variable {s t : State}

/-- MSGLEN is its two halves, each written with BUSY = 0 alone. -/
theorem StepOutcome.msglen_changes (h : StepOutcome s t) (hr : ∀ q, s.input ≠ .reset :: q) (hne : t.msglen ≠ s.msglen) :
    s.pend = 0 := by
  by_cases hlo : t.msglen.toNat % 2 ^ 32 = s.msglen.toNat % 2 ^ 32
  · have hhi : t.msglen.toNat / 2 ^ 32 ≠ s.msglen.toNat / 2 ^ 32 := fun hhi =>
      hne (BitVec.eq_of_toNat_eq (by omega))
    exact (h.msglenHi_changes hr hhi).1
  · exact (h.msglenLo_changes hr hlo).1

/-- Settles O55: a result or PEND moves at the Core's turn, any other operand by an access with BUSY = 0. -/
theorem operandsFrozenWhileBusy : Obligations.OperandsFrozenWhileBusy := by
  intro s t hp hcore hr hstep
  have h := StepOutcome.of_step hstep
  have hresults : SameResults s t :=
    (h.completes_or_sameResults hr).resolve_left fun ⟨q, _, hq, _⟩ => hcore q hq
  refine ⟨by_contra fun hne => ?_, by_contra fun hne => hp (h.msg_changes hr hne).1,
    by_contra fun hne => hp (h.msglen_changes hr hne), by_contra fun hne => hp (h.blksel_changes hr hne).1,
    hresults.pad, hresults.padlen, hresults.nblk, hresults.blk, hresults.w, hresults.h,
    by_contra fun hne => hp (h.msgptr_changes hr hne).1, by_contra fun hne => hp (h.padptr_changes hr hne).1⟩
  obtain ⟨⟨q, hq⟩, -⟩ := h.pend_cleared hr hp hne
  exact hcore q hq

end Sys2Proof.Machine
end

section
/-! # Proofs: command words and commands, both ways (R57, R59, R60) -/

namespace Sys2Proof

open Spec

/-! ### The fields of a word -/

@[simp] theorem fieldsOf_wordOf (c : CmdWord) : fieldsOf (wordOf c) = c := by
  rw [fieldsOf, wordOf, BitVec.extractLsb'_append_eq_left, BitVec.extractLsb'_append_eq_right]

@[simp] theorem wordOf_fieldsOf (w : Word) : wordOf (fieldsOf w) = w :=
  BitVec.extractLsb'_append_extractLsb' (w := 28)

theorem fieldsOf_op_toNat (w : Word) : (fieldsOf w).op.toNat = w.toNat % 16 := by
  simp [fieldsOf]

theorem fieldsOf_rsv_toNat (w : Word) : (fieldsOf w).rsv.toNat = w.toNat / 16 := by
  have hlt : w.toNat / 16 < 2 ^ 28 := by omega
  rw [fieldsOf, BitVec.extractLsb'_toNat, Nat.shiftRight_eq_div_pow, Nat.mod_eq_of_lt hlt]

/-- RSV is 0 exactly in the words below 16. -/
theorem fieldsOf_rsv_ne_zero_iff (w : Word) : (fieldsOf w).rsv ≠ 0 ↔ w.toNat / 16 ≠ 0 := by
  rw [← fieldsOf_rsv_toNat]
  exact BitVec.toNat_ne

/-- The reserved opcodes of R60. -/
theorem commandOf_eq_none_iff (op : BitVec 4) : commandOf op = none ↔ op.toNat = 0 ∨ 8 ≤ op.toNat := by
  decide +revert

/-! ### The decoder -/

/-- A legal word has RSV = 0 and an opcode of the table. -/
theorem decode_eq_instr_iff_fields {w : Word} {i : Instr} :
    decode w = .instr i ↔ (fieldsOf w).rsv = 0 ∧ commandOf (fieldsOf w).op = some i := by
  by_cases hr : (fieldsOf w).rsv = 0
  · rw [decode, if_neg (not_not_intro hr), and_iff_right hr]
    cases commandOf (fieldsOf w).op <;> simp
  · rw [decode, if_pos hr]
    exact iff_of_false nofun fun ⟨hrsv, _⟩ => hr hrsv

theorem decode_encode (i : Instr) : decode (encode i) = .instr i := by
  rw [decode_eq_instr_iff_fields, encode, fieldsOf_wordOf]
  exact ⟨rfl, Machine.commandOf_opcodeOf i⟩

/-- The decoder takes a command from no word but the one its fields make: the whole word is matched. -/
theorem decode_eq_instr_iff {w : Word} {i : Instr} : decode w = .instr i ↔ w = encode i := by
  constructor
  · intro h
    obtain ⟨hrsv, hop⟩ := decode_eq_instr_iff_fields.1 h
    calc w = wordOf (fieldsOf w) := (wordOf_fieldsOf w).symm
      _ = wordOf ⟨0, opcodeOf i⟩ := by rw [← hrsv, ← Machine.opcodeOf_of_commandOf hop]
  · rintro rfl
    exact decode_encode i

/-- The decoder is total: a word is illegal exactly when it gives no command. -/
theorem exists_illegal_iff_forall_ne (w : Word) : (∃ r, decode w = .illegal r) ↔ ∀ i, decode w ≠ .instr i := by
  cases decode w <;> simp

theorem encode_eq_commandWord (i : Instr) : encode i = commandWord i := by cases i <;> rfl

theorem decode_commandWord (i : Instr) : decode (commandWord i) = .instr i :=
  encode_eq_commandWord i ▸ decode_encode i

/-- The illegal words by their fields, in arithmetic (R60). -/
theorem exists_illegal_iff (w : Word) :
    (∃ r, decode w = .illegal r) ↔ (w.toNat % 16 = 0 ∨ 8 ≤ w.toNat % 16) ∨ w.toNat / 16 ≠ 0 := by
  rw [exists_illegal_iff_forall_ne, ← fieldsOf_op_toNat, ← commandOf_eq_none_iff, ← fieldsOf_rsv_ne_zero_iff, or_comm]
  simp only [ne_eq, decode_eq_instr_iff_fields, Option.eq_none_iff_forall_ne_some, not_and_or, forall_or_left]

/-- Settles O4: a command is decoded from the word that encodes it and from no other, and the encoder gives the table's
words. -/
theorem decodeMatchesWholeWord : Obligations.DecodeMatchesWholeWord := by
  refine ⟨fun w i => ?_, fun i _ => ⟨encode_eq_commandWord i, decode_encode i⟩, fun w => ?_⟩
  · rw [decode_eq_instr_iff, encode_eq_commandWord]
  · simp only [exists_illegal_iff_forall_ne, ne_eq, decode_eq_instr_iff, encode_eq_commandWord]

/-- Settles O3: the seven words are the reference table's. -/
theorem tableWordsDecode : Obligations.TableWordsDecode :=
  ⟨decode_commandWord .init, decode_commandWord .pad, decode_commandWord .split, decode_commandWord .sched,
    decode_commandWord .compress, decode_commandWord .format, decode_commandWord .hash⟩

end Sys2Proof
end

section
/-! # Proofs: a CMD write of an illegal word (R60, R100) -/

namespace Sys2Proof.Machine

open Sys2Proof.Spec

variable {s : State} {a v : Word} {q : List Input}

/-- A command that fails a check is rejected where it is not dropped. -/
theorem present_eq_reject (op : BitVec 4) (e : CmdError) (hp : s.pend = 0) (he : s.err = false) :
    present op (some e) s = s.reject e := by
  simp [present, busy_eq_false.2 hp, he]

theorem commandWrite_illegal {r : Illegal} (hd : decode v = .illegal r) :
    commandWrite v s = .quiet (present 0 (some .illegal) s) := by
  rw [commandWrite, hd]

theorem step_write_cmd_illegal {r : Illegal} (hi : s.input = .write a v :: q) (ho : off a = 0x00C) (hp : s.pend = 0)
    (he : s.err = false) (hd : decode v = .illegal r) : step s = .next ((s.withInput q).reject .illegal) := by
  have hr : regAt (offsetOf a) = some .cmd := regAt_offsetOf_eq_some_iff.2 ho
  refine step_write_of_idleWrite hi hp ?_
  rw [hr, idleWrite, commandWrite_illegal hd, present_eq_reject 0 .illegal (s := s.withInput q) hp he]

/-- Settles O5: the legal words are what the illegal ones leave of all words, and an idle block rejects the latter. -/
theorem illegalWordRejected : Obligations.IllegalWordRejected := by
  refine ⟨exists_illegal_iff, fun v => ?_, fun s a v q hi ho hp he ⟨_, hd⟩ => step_write_cmd_illegal hi ho hp he hd⟩
  have hlegal : (∃ i, decode v = .instr i) ↔ ¬∃ r, decode v = .illegal r := by
    simp [exists_illegal_iff_forall_ne]
  rw [hlegal, exists_illegal_iff]
  omega

end Sys2Proof.Machine
end

section
/-! # Proofs: the address of a register in the Host's address space (R50, R62, R63) -/

namespace Sys2Proof.Machine

open Sys2Proof.Spec

/-- The base is the start of a page whatever page the platform chose (R50). -/
theorem sha1Base_toNat_mod : Config.sha1Base.toNat % 0x1000 = 0 := by
  rw [Config.sha1Base, BitVec.toNat_append, BitVec.toNat_zero, Nat.or_zero, Nat.shiftLeft_eq]
  omega

/-- A page-aligned base drops out of bits 11:2; a carry out of bit 31 does too (R38). -/
theorem off_add_of_page_aligned {base : Word} {n : Nat} (hbase : base.toNat % 0x1000 = 0) (hn : n % 4 = 0)
    (hlt : n < 0x1000) : off (base + BitVec.ofNat 32 n) = n := by
  rw [off, BitVec.toNat_add, BitVec.toNat_ofNat]
  omega

theorem off_hostAddress (r : Reg) : off (hostAddress r) = regOffset r :=
  off_add_of_page_aligned sha1Base_toNat_mod (regOffset_mod_four r) (regOffset_lt r)

/-- Settles O57: the base drops out of the offset, and the word of a command decodes to it. -/
theorem hostAddressSelectsRegister : Obligations.HostAddressSelectsRegister :=
  ⟨fun r => ⟨off_hostAddress r, regAt_offsetOf_eq_some_iff.2 (off_hostAddress r)⟩,
    fun s q i hi hp => stepRunsPresentedCommand s _ _ q i hi (off_hostAddress .cmd) hp (decode_encode i)⟩

end Sys2Proof.Machine
end

section
/-! # Proofs: a word written most significant byte first (R11) -/

namespace Sys2Proof.Machine

/-- Byte `j` of BE64bytes in arithmetic: the word shifted down to it, reduced to a byte. -/
theorem be64Bytes_getElem? (v : BitVec 64) {j : Nat} (hj : j < 8) :
    (be64Bytes v)[j]? = some (BitVec.ofNat 8 (v.toNat / 2 ^ (8 * (7 - j)))) := by
  have hbyte (k : Nat) : (v >>> k).setWidth 8 = BitVec.ofNat 8 (v.toNat / 2 ^ k) := by
    rw [← BitVec.ofNat_toNat, BitVec.toNat_ushiftRight, Nat.shiftRight_eq_div_pow]
  rw [be64Bytes, List.getElem?_map, List.getElem?_range hj, Option.map_some, hbyte]

/-- The first `k` bytes, read big-endian, are the word without its low `8 - k` bytes. -/
theorem foldl_take_be64Bytes (v : BitVec 64) {k : Nat} (hk : k ≤ 8) :
    ((be64Bytes v).take k).foldl (fun x b => x * 256 + b.toNat) 0 = v.toNat / 2 ^ (8 * (8 - k)) := by
  induction k with
  | zero => exact (Nat.div_eq_of_lt v.isLt).symm
  | succ k ih =>
    have hshift : v.toNat / 2 ^ (8 * (8 - k)) = v.toNat / 2 ^ (8 * (7 - k)) / 256 := by
      rw [Nat.div_div_eq_div_mul, show 8 * (8 - k) = 8 * (7 - k) + 8 by omega, Nat.pow_add]
    rw [List.take_add_one, be64Bytes_getElem? v (by omega), Option.toList_some, List.foldl_append, ih (by omega),
      hshift, List.foldl_cons, List.foldl_nil, BitVec.toNat_ofNat, show 8 - (k + 1) = 7 - k by omega]
    exact Nat.div_add_mod' _ 256

/-- BE64bytes read back big-endian is the word. -/
theorem foldl_be64Bytes (v : BitVec 64) : (be64Bytes v).foldl (fun x b => x * 256 + b.toNat) 0 = v.toNat := by
  have h := foldl_take_be64Bytes v le_rfl
  rwa [List.take_of_length_le (be64Bytes_length v).le, Nat.sub_self, Nat.mul_zero, Nat.pow_zero, Nat.div_one] at h

end Sys2Proof.Machine
end

section
/-! # Proofs: the padded message byte by byte (R66, R67) -/

namespace Sys2Proof.Machine

variable {m : List Byte} {i j : Nat}

theorem padMessage_getElem?_of_lt (hi : i < m.length) : (padMessage m)[i]? = m[i]? := by
  rw [padMessage, List.append_assoc, List.append_assoc, List.getElem?_append_left hi]

theorem padMessage_getElem?_length (m : List Byte) : (padMessage m)[m.length]? = some 0x80 := by
  rw [padMessage, List.append_assoc, List.append_assoc, List.getElem?_append_right le_rfl, Nat.sub_self]
  rfl

theorem padMessage_getElem?_zeros (hlo : m.length < i) (hhi : i < padlen m.length - 8) :
    (padMessage m)[i]? = some 0x00 := by
  have hz := zeroCount_eq m.length
  rw [padMessage, List.getElem?_append_left (by simp; omega), List.getElem?_append_right (by simp; omega),
    List.getElem?_replicate, if_pos (by simp; omega)]

/-- The last eight bytes are the length field. -/
theorem padMessage_drop (m : List Byte) :
    (padMessage m).drop (padlen m.length - 8) = be64Bytes (BitVec.ofNat 64 (8 * m.length)) := by
  have hz := zeroCount_eq m.length
  rw [padMessage, List.drop_left' (by simp; omega)]

theorem padMessage_getElem?_lengthField (m : List Byte) (hj : j < 8) :
    (padMessage m)[padlen m.length - 8 + j]? =
      some (BitVec.ofNat 8 (8 * m.length % 2 ^ 64 / 2 ^ (8 * (7 - j)))) := by
  rw [← List.getElem?_drop, padMessage_drop, be64Bytes_getElem? _ hj, BitVec.toNat_ofNat]

/-- Settles O22: the four parts that `padMessage` puts together, the last read off the word of the bit length. -/
theorem paddedMessageByteByByte : Obligations.PaddedMessageByteByByte := by
  refine fun m => ⟨fun i => padMessage_getElem?_of_lt, padMessage_getElem?_length m,
    fun i => padMessage_getElem?_zeros, fun j hj => ?_⟩
  rw [padMessage_getElem?_lengthField m hj]
  exact congrArg some (BitVec.eq_of_toNat_eq (by simp))

theorem padlen_bounds (n : Nat) : n + 9 ≤ padlen n ∧ padlen n ≤ n + 72 := by
  unfold padlen
  omega

/-- Settles O23: the lengths by arithmetic; the length field reads back as 8n, which fits 64 bits below 2^61 bytes. -/
theorem paddingProperties : Obligations.PaddingProperties := by
  refine ⟨fun n => ⟨padlen_mod n, padlen_bounds n⟩, rfl, rfl, fun m hm => ?_⟩
  rw [padMessage_drop, foldl_be64Bytes, BitVec.toNat_ofNat, Nat.mod_eq_of_lt (by omega)]

end Sys2Proof.Machine
end

section
/-! # Proofs: the closed form of the padding and the byte loop (R64, R65) -/

namespace Sys2Proof.Machine

open Sys2Proof.Spec

theorem zeroCount_mod (n : Nat) : (n + 1 + zeroCount n) % 64 = 56 := by
  unfold zeroCount
  omega

theorem zeroCount_lt (n : Nat) : zeroCount n < 64 := by
  unfold zeroCount
  omega

/-- The loop appends one zero byte per round until the length is 56 modulo 64, so with fewer than 64 to go it appends
exactly what is missing. -/
theorem zerosUntil56_eq_append_replicate {k z : Nat} {p : List Byte} (hmod : (p.length + z) % 64 = 56) (hz : z < 64)
    (hk : z ≤ k) : zerosUntil56 k p = p ++ List.replicate z 0 := by
  induction k generalizing z p with
  | zero => rw [Nat.le_zero.1 hk, List.replicate_zero, List.append_nil, zerosUntil56]
  | succ k ih =>
    cases z with
    | zero =>
      rw [Nat.add_zero] at hmod
      rw [zerosUntil56, if_neg (not_not_intro hmod), List.replicate_zero, List.append_nil]
    | succ z =>
      have hnext : ((p ++ [0x00]).length + z) % 64 = 56 := by
        rw [List.length_append, List.length_singleton, Nat.add_right_comm]
        exact hmod
      rw [zerosUntil56, if_pos (by omega), ih hnext (by omega) (by omega), List.append_assoc, List.singleton_append,
        List.replicate_succ]

/-- R64's `AND 0xFF` keeps the byte that the reduction to eight bits keeps. -/
theorem be64Bytes_eq_masked (v : BitVec 64) :
    be64Bytes v = (List.range 8).map fun k => ((v >>> (8 * (7 - k))) &&& 0xFF#64).setWidth 8 := by
  have hmask : (0xFF#64).setWidth 8 = BitVec.allOnes 8 := by decide
  simp only [be64Bytes, BitVec.setWidth_and, hmask, BitVec.and_allOnes]

theorem padMessage_eq_padLoop (m : List Byte) : padMessage m = padLoop m := by
  have hmod : ((m ++ [(0x80 : Byte)]).length + zeroCount m.length) % 64 = 56 := by
    rw [List.length_append]
    exact zeroCount_mod m.length
  have hz := zeroCount_lt m.length
  rw [padMessage, padLoop, zerosUntil56_eq_append_replicate hmod hz hz.le, be64Bytes_eq_masked]

/-- Settles O21: the loop runs z(n) rounds, and z(n) is the one count below 64 that meets its exit condition. -/
theorem padderLoopAgreesWithClosedForm : Obligations.PadderLoopAgreesWithClosedForm := by
  refine ⟨fun m => ⟨padMessage_eq_padLoop m, padMessage_length m⟩, fun n => ?_⟩
  have hmod := zeroCount_mod n
  have hlt := zeroCount_lt n
  exact ⟨rfl, Int.toNat_of_nonneg (Int.emod_nonneg _ (by decide)), by omega, (zeroCount_eq n).symm.trans (by omega),
    hmod, fun z hz => by omega⟩

end Sys2Proof.Machine
end

section
/-! # Proofs: the checks of a command that takes a message, and the completion of PAD (R68, R101, R102) -/

namespace Sys2Proof.Machine

open Sys2Proof.Spec

variable {s : State} {m : List Byte}

/-- Presented to an idle block, a command that checks the length is rejected for the first check that fails, else
accepted. -/
theorem exec_of_lengthCheck {i : Instr} (hc : checkOf s i = lengthCheck s) (hp : s.pend = 0) (he : s.err = false) :
    exec i s = .next
      (if 2 ^ 61 ≤ msgLength s then s.reject .lenOvf
       else if s.msgCap < msgLength s then s.reject .lenCap
       else s.accept (opcodeOf i)) := by
  rw [lengthCheck] at hc
  split at hc
  case isTrue hovf => rw [if_pos hovf, exec_rejects hp he hc]
  case isFalse hovf =>
    rw [if_neg hovf]
    split at hc
    case isTrue hcap => rw [if_pos hcap, exec_rejects hp he hc]
    case isFalse hcap => rw [if_neg hcap, exec_accepts hp he hc]

/-- The padded length of a message that fits MSG is a word. -/
theorem padlen_lt_of_le_msgCap (hcap : Config.MsgCapLegal s.msgCap) (hlen : msgLength s ≤ s.msgCap) :
    padlen (msgLength s) < 2 ^ 32 :=
  (padlen_mono hlen).trans_lt (padCap_lt hcap)

theorem padEffect_padlen_toNat (hlt : padlen (msgLength s) < 2 ^ 32) :
    (padEffect s).padlen.toNat = padlen (msgLength s) := by
  rw [padEffect_eq, State.withDraws_padlen, State.setPad_padlen, BitVec.toNat_ofNat, Nat.mod_eq_of_lt hlt]

theorem padEffect_nblk_toNat (hlt : padlen (msgLength s) < 2 ^ 32) :
    (padEffect s).nblk.toNat = padlen (msgLength s) / 64 := by
  rw [padEffect_eq, State.withDraws_nblk, State.setPad_nblk, BitVec.toNat_ofNat,
    Nat.mod_eq_of_lt ((Nat.div_le_self _ _).trans_lt hlt)]

/-- The PAD buffer after the completion: the padded message, and from its length on what was there. -/
theorem memGet_padEffect_pad (s : State) (i : Nat) :
    memGet (padEffect s).pad i =
      if i < padlen (msgLength s) then (padMessage (message s).1)[i]? else memGet s.pad i := by
  simp [padEffect_eq, memGet_memWrite]

/-- Every byte of the padded message is found in the PAD buffer. -/
theorem memGet_padEffect_pad_of_some {i : Nat} {b : Byte} (h : (padMessage (message s).1)[i]? = some b) :
    memGet (padEffect s).pad i = some b := by
  have hi := (List.getElem?_eq_some_iff.1 h).1
  rw [padMessage_length, message_length] at hi
  rw [memGet_padEffect_pad, if_pos hi, h]

/-- A message byte written since reset is copied. -/
theorem memGet_padEffect_pad_of_written {i : Nat} {b : Byte} (hi : i < msgLength s) (hb : memGet s.msg i = some b) :
    memGet (padEffect s).pad i = some b := by
  refine memGet_padEffect_pad_of_some ?_
  rw [padMessage_getElem?_of_lt (by rwa [message_length])]
  exact memRead_written s.msg 0 _ _ i b hi (by rwa [Nat.zero_add])

/-- A message written since reset is read as it is, with no draw. -/
theorem message_of_messageIs (h : MessageIs s m) : message s = (m, s.draws) := by
  obtain ⟨hlen, hbytes⟩ := h
  rw [message, msgLength, ← hlen]
  exact memRead_all_written s.msg 0 s.draws m fun j hj => by rw [Nat.zero_add, hbytes j hj]

theorem padEffect_draws (s : State) : (padEffect s).draws = (message s).2 := rfl

/-- Settles O11: the two length checks in order, then the completion, one register at a time. -/
theorem padWritesPaddedMessage : Obligations.PadWritesPaddedMessage := by
  refine ⟨rfl, fun s hp he => exec_of_lengthCheck (checkOf_pad s) hp he, fun s hp hcap hlen => ?_⟩
  have hlt := padlen_lt_of_le_msgCap hcap hlen
  refine ⟨_, exec_in_flight hp, ?frame, padEffect_padlen_toNat hlt, padEffect_nblk_toNat hlt, fun i hi => ?beyond,
    fun i b hi hb => memGet_padEffect_pad_of_written hi hb, fun m hm => ⟨fun i hi => ?whole, ?draws⟩⟩
  case frame =>
    obtain ⟨p, l, n, d, e⟩ := padEffect_shape s
    rw [effectOf_pad, e]
    rfl
  case beyond => exact (memGet_padEffect_pad s i).trans (if_neg (Nat.not_lt.2 hi))
  case whole =>
    refine (memGet_padEffect_pad s i).trans ?_
    rw [message_of_messageIs hm, padMessage_eq_padLoop]
    exact if_pos hi
  case draws => exact (padEffect_draws s).trans (congrArg Prod.snd (message_of_messageIs hm))

/-- Settles O12: the tail bytes of the padded message, whatever message was read. -/
theorem padTailIsFixed : Obligations.PadTailIsFixed := by
  intro s t hp hexec
  rw [exec_in_flight (i := .pad) hp] at hexec
  obtain rfl := Host.Outcome.next.inj hexec
  have hlen : (message s).1.length = s.msglen.toNat := message_length s
  rw [← hlen]
  exact ⟨memGet_padEffect_pad_of_some (padMessage_getElem?_length _),
    fun i hlo hhi => memGet_padEffect_pad_of_some (padMessage_getElem?_zeros hlo hhi),
    fun j hj => memGet_padEffect_pad_of_some (padMessage_getElem?_lengthField _ hj)⟩

end Sys2Proof.Machine
end

section
/-! # Proofs: the check and the completion of SPLIT (R72, R103), and the blocks it delivers (R69, R71) -/

namespace Sys2Proof.Machine

open Sys2Proof.Spec

variable {s : State} {p : List Byte} {n j : Nat}

theorem bufferOf_getElem_of_getElem? {l : List Byte} {i : Nat} {b : Byte} (hi : i < n) (h : l[i]? = some b) :
    (bufferOf n l)[i] = b := by
  rw [bufferOf, Vector.getElem_ofFn, List.getD_eq_getElem?_getD, h, Option.getD_some]

/-- A list that fills the buffer is the buffer's bytes. -/
theorem bufferOf_toList {l : List Byte} (h : l.length = n) : (bufferOf n l).toList = l := by
  refine List.ext_getElem (by rw [Vector.length_toList, h]) fun i hi hl => ?_
  rw [Vector.getElem_toList]
  exact bufferOf_getElem_of_getElem? _ (List.getElem?_eq_getElem hl)

/-- Presented to an idle block, SPLIT is rejected for a block index out of range, else accepted. -/
theorem exec_split_of_idle (hp : s.pend = 0) (he : s.err = false) :
    exec .split s =
      .next (if s.nblk.toNat ≤ blockIndex s then s.reject .range else s.accept (opcodeOf .split)) := by
  by_cases hrange : s.nblk.toNat ≤ blockIndex s
  · have hc : checkOf s .split = some .range := if_pos hrange
    rw [if_pos hrange, exec_rejects hp he hc]
  · have hc : checkOf s .split = none := if_neg hrange
    rw [if_neg hrange, exec_accepts hp he hc]

theorem splitEffect_blk (s : State) : (splitEffect s).blk = bufferOf 64 (paddedBlock (blockIndex s) s).1 := rfl

theorem splitEffect_draws (s : State) : (splitEffect s).draws = (paddedBlock (blockIndex s) s).2 := rfl

/-- Settles O13: the check by its two outcomes, then the completion: the frame, the copied bytes and the draws. -/
theorem splitCopiesSelectedBlock : Obligations.SplitCopiesSelectedBlock := by
  refine ⟨rfl, fun s hp he => exec_split_of_idle hp he, fun s hp => ?_⟩
  refine ⟨_, exec_in_flight hp, ?frame, fun k b hb => ?copied, fun hwritten => ?draws⟩
  case frame =>
    obtain ⟨blk, d, e⟩ := splitEffect_shape s
    rw [effectOf_split, e]
    rfl
  case copied =>
    rw [State.finish_blk, effectOf_split, splitEffect_blk]
    exact bufferOf_getElem_of_getElem? k.isLt (memRead_written s.pad _ 64 s.draws k b k.isLt hb)
  case draws =>
    rw [State.finish_draws, effectOf_split, splitEffect_draws]
    exact memRead_draws s.pad _ 64 s.draws hwritten

theorem block_length (h : 64 * j + 64 ≤ p.length) : (block p j).length = 64 := by
  rw [block, List.length_take, List.length_drop]
  omega

theorem block_getElem? (p : List Byte) (j : Nat) {k : Nat} (hk : k < 64) : (block p j)[k]? = p[64 * j + k]? := by
  rw [block, List.getElem?_take_of_lt hk, List.getElem?_drop]

/-- The first `n` blocks in order are the first `64 * n` bytes (R69). -/
theorem flatMap_range_block (p : List Byte) (n : Nat) : (List.range n).flatMap (block p) = p.take (64 * n) := by
  induction n with
  | zero => rfl
  | succ n ih =>
    rw [List.range_succ, List.flatMap_append, ih, List.flatMap_singleton, block, Nat.mul_succ, List.take_add]

/-- A block of PAD that lies within what has been written is read as it is, with no draw. -/
theorem paddedBlock_of_written (hpad : ∀ i, i < p.length → memGet s.pad i = p[i]?) (hj : 64 * j + 64 ≤ p.length) :
    paddedBlock j s = (block p j, s.draws) := by
  have hlen : (block p j).length = 64 := block_length hj
  have hread := memRead_all_written s.pad (64 * j) s.draws (block p j) fun k hk => by
    rw [hlen] at hk
    rw [block_getElem? p j hk, hpad _ (by omega)]
  rwa [hlen] at hread

/-- With PAD written up to the block of index BLKSEL, the completion of SPLIT delivers that block. -/
theorem exec_split_blk {t : State} (hp : s.pend = 3) (hexec : exec .split s = .next t)
    (hpad : ∀ i, i < p.length → memGet s.pad i = p[i]?) (hindex : blockIndex s = j) (hj : 64 * j + 64 ≤ p.length) :
    t.blk.toList = block p j := by
  rw [exec_in_flight (i := .split) hp] at hexec
  rw [← Host.Outcome.next.inj hexec, State.finish_blk, effectOf_split, splitEffect_blk, hindex,
    paddedBlock_of_written hpad hj, bufferOf_toList (block_length hj)]

/-- Settles O24: each run delivers the block of its index, and NBLK blocks are the whole padded message. -/
theorem blocksCoverPaddedMessage : Obligations.BlocksCoverPaddedMessage := by
  intro s p hnblk hlen hpad b hb
  have hblk : ∀ j ∈ List.range s.nblk.toNat, (b j).blk.toList = block p j := fun j hj => by
    have hlt : j < s.nblk.toNat := List.mem_range.1 hj
    have hindex : (BitVec.ofNat 32 j).toNat = j :=
      (BitVec.toNat_ofNat j 32).trans (Nat.mod_eq_of_lt (hlt.trans s.nblk.isLt))
    exact exec_split_blk rfl (hb j hlt) hpad hindex (by omega)
  calc (List.range s.nblk.toNat).flatMap (fun j => (b j).blk.toList)
      = (List.range s.nblk.toNat).flatMap (block p) := List.flatMap_congr hblk
    _ = p.take (64 * s.nblk.toNat) := flatMap_range_block p _
    _ = p := List.take_of_length_le (by omega)

end Sys2Proof.Machine
end

section
/-! # Proofs: the message schedule (R73, R74, R75) and the completion of SCHED (R76) -/

namespace Sys2Proof.Machine

open Sys2Proof.Spec

theorem vector_getD_eq_getElem {α : Type} {n : Nat} (xs : Vector α n) (d : α) {i : Nat} (hi : i < n) :
    xs.getD i d = xs[i] := by
  simp [Vector.getD, hi]

theorem getD_setIfInBounds_self (w : Vector Word 80) {i : Nat} (hi : i < 80) (x : Word) :
    (w.setIfInBounds i x).getD i 0 = x := by
  simp [Vector.getD, hi]

theorem getD_setIfInBounds_of_ne (w : Vector Word 80) {i j : Nat} (h : i ≠ j) (x : Word) :
    (w.setIfInBounds i x).getD j 0 = w.getD j 0 := by
  simp [Vector.getD, h]

/-! ### The two loops of R76 -/

/-- The word R74 puts at position `i` over the words of `w`. -/
def expandedWord (w : Vector Word 80) (i : Nat) : Word :=
  (w.getD (i - 3) 0 ^^^ w.getD (i - 8) 0 ^^^ w.getD (i - 14) 0 ^^^ w.getD (i - 16) 0).rotateLeft 1

theorem expandWord_eq (w : Vector Word 80) (i : Nat) : expandWord w i = w.setIfInBounds i (expandedWord w i) := by
  rw [expandWord, rotl32_eq_rotateLeft _ (by decide), expandedWord]

/-- Each word of the expansion depends on the words before it alone. -/
theorem expandedWord_congr {w w' : Vector Word 80} {i : Nat} (hi : 16 ≤ i)
    (h : ∀ j, j < i → w.getD j 0 = w'.getD j 0) : expandedWord w i = expandedWord w' i := by
  simp only [expandedWord, h (i - 3) (by omega), h (i - 8) (by omega), h (i - 14) (by omega), h (i - 16) (by omega)]

/-- The loop of R73 writes the big-endian words of the block. -/
theorem getD_foldl_loadWord (blk : Vector Byte 64) (w : Vector Word 80) {n i : Nat} (hn : n ≤ 80) (hi : i < n) :
    ((List.range n).foldl (loadWord blk) w).getD i 0 = be32Vec blk (4 * i) := by
  induction n with
  | zero => omega
  | succ n ih =>
    rw [List.range_succ, List.foldl_append, List.foldl_cons, List.foldl_nil, loadWord]
    obtain rfl | hlt := Nat.eq_or_lt_of_le (Nat.le_of_lt_succ hi)
    · exact getD_setIfInBounds_self _ hn _
    · rw [getD_setIfInBounds_of_ne _ hlt.ne']
      exact ih (by omega) hlt

/-- The loop of R74 leaves the words before its first position. -/
theorem getD_foldl_expandWord_of_lt (w : Vector Word 80) {a n j : Nat} (hj : j < a) :
    ((List.range' a n).foldl expandWord w).getD j 0 = w.getD j 0 := by
  induction n generalizing a w with
  | zero => rfl
  | succ n ih =>
    rw [List.range'_succ, List.foldl_cons, ih _ (by omega), expandWord_eq, getD_setIfInBounds_of_ne _ hj.ne']

/-- In the result of the loop of R74, each word it writes is the expansion of the words of that same result. -/
theorem getD_foldl_expandWord (w : Vector Word 80) {a n i : Nat} (ha : 16 ≤ a) (hn : a + n ≤ 80) (hai : a ≤ i)
    (hi : i < a + n) :
    ((List.range' a n).foldl expandWord w).getD i 0 = expandedWord ((List.range' a n).foldl expandWord w) i := by
  induction n generalizing a w with
  | zero => omega
  | succ n ih =>
    obtain rfl | hlt := Nat.eq_or_lt_of_le hai
    · have hbefore : ∀ j, j < a → w.getD j 0 = ((List.range' a (n + 1)).foldl expandWord w).getD j 0 :=
        fun j hj => (getD_foldl_expandWord_of_lt w hj).symm
      rw [← expandedWord_congr ha hbefore, List.range'_succ, List.foldl_cons,
        getD_foldl_expandWord_of_lt _ (Nat.lt_succ_self a), expandWord_eq, getD_setIfInBounds_self _ (by omega)]
    · rw [List.range'_succ, List.foldl_cons]
      exact ih _ (by omega) (by omega) hlt (by omega)

theorem schedule_getD_of_lt (blk : Vector Byte 64) (w : Vector Word 80) {i : Nat} (hi : i < 16) :
    (schedule blk w).getD i 0 = be32Vec blk (4 * i) := by
  rw [schedule, getD_foldl_expandWord_of_lt _ hi, getD_foldl_loadWord blk w (by decide) hi]

theorem schedule_getD_of_le (blk : Vector Byte 64) (w : Vector Word 80) {i : Nat} (hlo : 16 ≤ i) (hi : i < 80) :
    (schedule blk w).getD i 0 = expandedWord (schedule blk w) i :=
  getD_foldl_expandWord _ (Nat.le_refl 16) (Nat.le_refl 80) hlo hi

/-- Settles O14: each loop's words are read off the finished file, and the state differs in W, PEND and DONE alone. -/
theorem schedExpandsBlock : Obligations.SchedExpandsBlock := by
  refine ⟨rfl, fun s hp he => exec_accepts hp he (checkOf_sched s), fun s hp => ?_⟩
  refine ⟨schedule s.blk s.w, ?completion, fun i hi => ?loaded, fun i hlo hi => ?expanded⟩
  case completion =>
    rw [exec_in_flight (i := .sched) hp, effectOf_sched, schedEffect_eq]
    generalize schedule s.blk s.w = w
    rfl
  case loaded =>
    have hword := schedule_getD_of_lt s.blk s.w hi
    rw [be32Vec, be32_eq_append] at hword
    simpa (disch := omega) only [vector_getD_eq_getElem] using hword
  case expanded =>
    have hword := schedule_getD_of_le s.blk s.w hlo hi
    rw [expandedWord] at hword
    simpa (disch := omega) only [vector_getD_eq_getElem] using hword

/-! ### The reference schedule is the finished file, word after word -/

/-- One pass of the reference's loop. -/
def appendWord (w : List Word) (k : Nat) : List Word :=
  w ++ [(w.getD (k + 13) 0 ^^^ w.getD (k + 8) 0 ^^^ w.getD (k + 2) 0 ^^^ w.getD k 0).rotateLeft 1]

theorem scheduleList_eq (block : List Byte) :
    scheduleList block = (List.range 64).foldl appendWord ((List.range 16).map fun i => wordAt block (4 * i)) := rfl

theorem list_getD_take_of_lt {α : Type} (l : List α) (d : α) {j k : Nat} (hj : j < k) :
    (l.take k).getD j d = l.getD j d := by
  rw [List.getD_eq_getElem?_getD, List.getElem?_take_of_lt hj, ← List.getD_eq_getElem?_getD]

/-- The first words of the finished file and the pass of the reference's loop for the next one. -/
theorem appendWord_take_schedule (blk : Vector Byte 64) (w : Vector Word 80) {k : Nat} (hk : k < 64) :
    appendWord ((schedule blk w).toList.take (16 + k)) k = (schedule blk w).toList.take (16 + (k + 1)) := by
  have hnext := schedule_getD_of_le blk w (Nat.le_add_right 16 k) (by omega)
  have hlen : 16 + k < (schedule blk w).toList.length := by rw [Vector.length_toList]; omega
  rw [← Nat.add_assoc, ← List.take_append_getElem hlen, Vector.getElem_toList, ← vector_getD_eq_getElem _ 0, hnext,
    expandedWord, appendWord]
  simp (disch := omega) only [list_getD_take_of_lt, ← vector_getD_eq_toList_getD]
  rw [show 16 + k - 3 = k + 13 by omega, show 16 + k - 8 = k + 8 by omega, show 16 + k - 14 = k + 2 by omega,
    Nat.add_sub_cancel_left]

theorem take_schedule_sixteen (blk : Vector Byte 64) (w : Vector Word 80) :
    (schedule blk w).toList.take 16 = (List.range 16).map fun i => wordAt blk.toList (4 * i) := by
  refine List.ext_getElem (by simp) fun i hi _ => ?_
  have hlt : i < 16 := (List.length_take_le _ _).trans_lt' hi
  rw [List.getElem_take, List.getElem_map, List.getElem_range, Vector.getElem_toList, ← vector_getD_eq_getElem _ 0,
    schedule_getD_of_lt blk w hlt, be32Vec_eq_wordAt]

/-- After `k` passes the reference has appended the first `16 + k` words of the finished file. -/
theorem foldl_appendWord_eq_take (blk : Vector Byte 64) (w : Vector Word 80) {k : Nat} (hk : k ≤ 64) :
    (List.range k).foldl appendWord ((List.range 16).map fun i => wordAt blk.toList (4 * i)) =
      (schedule blk w).toList.take (16 + k) := by
  induction k with
  | zero => exact (take_schedule_sixteen blk w).symm
  | succ k ih =>
    rw [List.range_succ (n := k), List.foldl_append, ih (by omega), List.foldl_cons, List.foldl_nil,
      appendWord_take_schedule blk w (by omega)]

theorem schedule_toList (blk : Vector Byte 64) (w : Vector Word 80) :
    (schedule blk w).toList = scheduleList blk.toList := by
  rw [scheduleList_eq, foldl_appendWord_eq_take blk w (Nat.le_refl 64), List.take_of_length_le]
  rw [Vector.length_toList]

/-- Settles O25: the reference schedule does not mention what W held before. -/
theorem scheduleReadsOnlyBlock : Obligations.ScheduleReadsOnlyBlock := fun blk w w' =>
  ⟨Vector.toList_inj.1 ((schedule_toList blk w).trans (schedule_toList blk w').symm), schedule_toList blk w⟩

end Sys2Proof.Machine
end

section
/-! # Proofs: the bands (R77), the mixing functions (R78) and the round constants (R79) -/

namespace Sys2Proof.Machine

open Sys2Proof.Spec

/-- The four bands of R77, each with its bounds. The last arm of R78 and of R79 also takes every later round. -/
theorem band_cases (t : Nat) :
    (t < 20 ∧ band t = 0) ∨ (20 ≤ t ∧ t < 40 ∧ band t = 1) ∨ (40 ≤ t ∧ t < 60 ∧ band t = 2) ∨
      (60 ≤ t ∧ ∃ k, band t = k + 3) := by
  have hband : band t = t / 20 := rfl
  by_cases h : t < 60
  · omega
  · exact .inr (.inr (.inr ⟨by omega, t / 20 - 3, by omega⟩))

/-- Choose takes a bit of `y` where `x` has a 1 and a bit of `z` where it has a 0. -/
theorem choose_getLsbD (x y z : Word) {k : Nat} (hk : k < 32) :
    ((x &&& y) ||| (~~~x &&& z)).getLsbD k = if x.getLsbD k then y.getLsbD k else z.getLsbD k := by
  simp only [BitVec.getLsbD_or, BitVec.getLsbD_and, BitVec.getLsbD_not, hk, decide_true, Bool.true_and]
  cases x.getLsbD k <;> simp

/-- The two masks of choose are disjoint, so its XOR and its OR agree. -/
theorem choose_xor_eq_or (x y z : Word) : (x &&& y) ^^^ (~~~x &&& z) = (x &&& y) ||| (~~~x &&& z) := by
  refine BitVec.eq_of_getLsbD_eq fun k hk => ?_
  rw [choose_getLsbD x y z hk]
  simp only [BitVec.getLsbD_xor, BitVec.getLsbD_and, BitVec.getLsbD_not, hk, decide_true, Bool.true_and]
  cases x.getLsbD k <;> simp

/-- None, one or all three of majority's conjunctions hold at a position, so its XOR and its OR agree. -/
theorem majority_xor_eq_or (x y z : Word) :
    (x &&& y) ^^^ (x &&& z) ^^^ (y &&& z) = (x &&& y) ||| (x &&& z) ||| (y &&& z) := by
  refine BitVec.eq_of_getLsbD_eq fun k _ => ?_
  simp only [BitVec.getLsbD_xor, BitVec.getLsbD_or, BitVec.getLsbD_and]
  cases x.getLsbD k <;> cases y.getLsbD k <;> simp

/-- The functions of R78's table are the forms with OR, band by band. -/
theorem mix_eq_mixing (t : Nat) (x y z : Word) : mix t x y z = mixing t x y z := by
  obtain ⟨hhi, hband⟩ | ⟨hlo, hhi, hband⟩ | ⟨hlo, hhi, hband⟩ | ⟨hlo, k, hband⟩ := band_cases t
  · simp (disch := omega) only [mix, hband, mixing, if_pos, choose_xor_eq_or]
  · simp (disch := omega) only [mix, hband, mixing, if_pos, if_neg]
  · simp (disch := omega) only [mix, hband, mixing, if_pos, if_neg, majority_xor_eq_or]
  · simp (disch := omega) only [mix, hband, mixing, if_neg]

theorem roundK_eq_roundConst (t : Nat) : roundK t = roundConst t := by
  obtain ⟨hhi, hband⟩ | ⟨hlo, hhi, hband⟩ | ⟨hlo, hhi, hband⟩ | ⟨hlo, k, hband⟩ := band_cases t
  · simp (disch := omega) only [roundK, hband, roundConst, if_pos]
  · simp (disch := omega) only [roundK, hband, roundConst, if_pos, if_neg]
  · simp (disch := omega) only [roundK, hband, roundConst, if_pos, if_neg]
  · simp (disch := omega) only [roundK, hband, roundConst, if_neg]

/-- Settles O27: `band` is its formula, and the reference constant is the one of the band. -/
theorem roundConstantsByBand : Obligations.RoundConstantsByBand := fun t _ => ⟨rfl, roundK_eq_roundConst t⟩

/-- Bit `k` of f_t is choose, majority or parity of the three bits at `k`, by the band of `t`. -/
theorem mixing_getLsbD (t : Nat) (x y z : Word) {k : Nat} (hk : k < 32) :
    (mixing t x y z).getLsbD k =
      if t ≤ 19 then (if x.getLsbD k then y.getLsbD k else z.getLsbD k)
      else if 40 ≤ t ∧ t ≤ 59 then
        (x.getLsbD k && y.getLsbD k) || (x.getLsbD k && z.getLsbD k) || (y.getLsbD k && z.getLsbD k)
      else xor (xor (x.getLsbD k) (y.getLsbD k)) (z.getLsbD k) := by
  obtain ⟨hhi, -⟩ | ⟨hlo, hhi, -⟩ | ⟨hlo, hhi, -⟩ | ⟨hlo, -⟩ := band_cases t
  · rw [mixing, if_pos hhi, choose_getLsbD x y z hk, if_pos (Nat.le_of_lt_succ hhi)]
  · simp (disch := omega) only [mixing, if_pos, if_neg, BitVec.getLsbD_xor]
  · simp (disch := omega) only [mixing, if_pos, if_neg, BitVec.getLsbD_or, BitVec.getLsbD_and]
  · simp (disch := omega) only [mixing, if_neg, BitVec.getLsbD_xor]

/-- Settles O26: the machine's functions are the forms with OR, whose bits are read off. -/
theorem mixingFunctionsActBitwise : Obligations.MixingFunctionsActBitwise := by
  intro t x y z _
  rw [mix_eq_mixing]
  exact ⟨rfl, fun _ hk => mixing_getLsbD t x y z hk⟩

end Sys2Proof.Machine
end

section
/-! # Proofs: the round (R80), the 80 rounds with the feed-forward (R81, R82) and the completion of COMPRESS (R83) -/

namespace Sys2Proof.Machine

open Sys2Proof.Spec

theorem compressRound_eq (t : Nat) (wt a b c d e : Word) :
    compressRound t wt ⟨a, b, c, d, e⟩ =
      ⟨a.rotateLeft 5 + mixing t b c d + e + roundConst t + wt, a, b.rotateLeft 30, c, d⟩ := by
  have h5 : rotl32 a 5 = a.rotateLeft 5 := rotl32_eq_rotateLeft a (by decide)
  have h30 : rotl32 b 30 = b.rotateLeft 30 := rotl32_eq_rotateLeft b (by decide)
  simp only [compressRound, h5, h30, mix_eq_mixing, roundK_eq_roundConst]

/-- Settles O28: the machine's rotations, mixing functions and constants are the reference's. -/
theorem roundShiftsTheChain : Obligations.RoundShiftsTheChain := fun t wt a b c d e _ => compressRound_eq t wt a b c d e

/-- The five words as the reference's tuple. -/
def fiveTuple (f : Five) : Word × Word × Word × Word × Word := (f.x0, f.x1, f.x2, f.x3, f.x4)

/-- The reference's recursion over the schedule words is the machine's rounds, each word taken with its index. -/
theorem roundsFrom_fiveTuple (w : List Word) (t : Nat) (f : Five) :
    roundsFrom t w (fiveTuple f) = fiveTuple ((w.zipIdx t).foldl (fun f p => compressRound p.2 p.1 f) f) := by
  induction w generalizing t f with
  | nil => rfl
  | cons wt w ih =>
    obtain ⟨a, b, c, d, e⟩ := f
    rw [List.zipIdx_cons, List.foldl_cons, ← ih, compressRound_eq]
    rfl

theorem zipIdx_toList_eq_map_range (w : Vector Word 80) :
    w.toList.zipIdx = (List.range 80).map fun t => (w.getD t 0, t) := by
  refine List.ext_getElem (by simp) fun t _ ht => ?_
  have hlt : t < 80 := by simpa using ht
  rw [List.getElem_zipIdx, List.getElem_map, List.getElem_range, Vector.getElem_toList, Nat.zero_add,
    vector_getD_eq_getElem w 0 hlt]

theorem rounds_eq_foldl_zipIdx (h : Five) (w : Vector Word 80) :
    rounds h w = w.toList.zipIdx.foldl (fun f p => compressRound p.2 p.1 f) h := by
  rw [zipIdx_toList_eq_map_range, List.foldl_map, rounds]

/-- The machine's compression is the reference's on the same 80 words. -/
theorem compressList_toList (h : Five) (w : Vector Word 80) : compressList h w.toList = compress h w := by
  have hrounds : roundsFrom 0 w.toList (h.x0, h.x1, h.x2, h.x3, h.x4) = fiveTuple (rounds h w) := by
    rw [rounds_eq_foldl_zipIdx, ← roundsFrom_fiveTuple, fiveTuple]
  rw [compressList, hrounds, compress]
  generalize rounds h w = r
  rfl

/-- The writes of COMPRESS, for any words: that they are variables keeps the comparison from running the rounds. -/
theorem setV_setH_finish (s : State) (f g : Five) :
    ((s.setV f).setH g).finish = { s with h := g, v := f, pend := 0, done := true } := rfl

/-- Settles O15: the completion writes the reference's result, and the state differs in H, A..E, PEND and DONE alone. -/
theorem compressFoldsSchedule : Obligations.CompressFoldsSchedule := by
  refine ⟨rfl, fun s hp he => exec_accepts hp he (checkOf_compress s), fun s hp => ?_⟩
  rw [exec_in_flight (i := .compress) hp, effectOf_compress, compressEffect_eq, setV_setH_finish, compressList_toList,
    compress_fst, compress_snd]

end Sys2Proof.Machine
end

section
/-! # Proofs: the digest, digit by digit (R86 to R88), and the completion of FORMAT (R89) -/

namespace Sys2Proof.Machine

open Sys2Proof.Spec

/-- The two ranges of R86 are the table of the sixteen digits. -/
theorem hexChar_eq_getD (v : BitVec 4) : hexChar v = hexDigits.getD v.toNat 0 := by decide +revert

@[simp] theorem hex8_length (x : Word) : (hex8 x).length = 8 := by rw [hex8, List.length_map, List.length_range]

theorem hex8_getElem? (x : Word) {k : Nat} (hk : k < 8) :
    (hex8 x)[k]? = some (hexDigits.getD ((x >>> (28 - 4 * k)).toNat % 16) 0) := by
  rw [hex8, List.getElem?_map, List.getElem?_range hk, Option.map_some, hexChar_eq_getD, BitVec.extractLsb'_toNat,
    BitVec.toNat_ushiftRight]

/-- Eight digits of each word lie one after another: the position's quotient by 8 selects the word, its remainder the
digit. -/
theorem flatMap_hex8_getElem? (ws : List Word) {p : Nat} (hp : p < 8 * ws.length) :
    (ws.flatMap hex8)[p]? = some (hexDigits.getD ((ws.getD (p / 8) 0 >>> (28 - 4 * (p % 8))).toNat % 16) 0) := by
  induction ws generalizing p with
  | nil => exact absurd hp (Nat.not_lt_zero p)
  | cons x ws ih =>
    rw [List.flatMap_cons]
    by_cases hlt : p < 8
    · rw [List.getElem?_append_left (by rwa [hex8_length]), hex8_getElem? x hlt, Nat.div_eq_of_lt hlt,
        Nat.mod_eq_of_lt hlt, List.getD_cons_zero]
    · obtain ⟨q, rfl⟩ := Nat.exists_eq_add_of_le' (Nat.not_lt.1 hlt)
      have hq : q < 8 * ws.length := by rw [List.length_cons] at hp; omega
      rw [List.getElem?_append_right (by rw [hex8_length]; omega), hex8_length, Nat.add_sub_cancel, ih hq,
        Nat.add_div_right q (by decide), Nat.add_mod_right, List.getD_cons_succ]

theorem digest_eq_flatMap (h : Five) : digest h = [h.x0, h.x1, h.x2, h.x3, h.x4].flatMap hex8 := by
  simp only [digest, List.flatMap_cons, List.flatMap_nil, List.append_nil, List.append_assoc]

theorem digest_getElem? (h : Five) {p : Nat} (hp : p < 40) : (digest h)[p]? = some (digestChar h p) := by
  rw [digest_eq_flatMap, flatMap_hex8_getElem? _ hp, digestChar]

@[simp] theorem digest_length (h : Five) : (digest h).length = 40 := by
  simp only [digest, List.length_append, hex8_length]

theorem digestChar_mem_hexDigits (h : Five) (p : Nat) : digestChar h p ∈ hexDigits := by
  have hindex (n : Nat) : n % 16 < hexDigits.length := Nat.mod_lt n (by decide)
  rw [digestChar, List.getD_eq_getElem _ _ (hindex _)]
  exact List.getElem_mem _

/-- Settles O30: the length, and each position's digit by word and place in the word. -/
theorem digestIsLowercaseHex : Obligations.DigestIsLowercaseHex := fun h =>
  ⟨digest_length h, fun p hp => ⟨digest_getElem? h hp, digestChar_mem_hexDigits h p⟩⟩

/-- What FORMAT leaves in DIG, character by character. -/
theorem bufferOf_digest_getElem (h : Five) {p : Nat} (hp : p < 40) : (bufferOf 40 (digest h))[p] = digestChar h p :=
  bufferOf_getElem_of_getElem? hp (digest_getElem? h hp)

theorem setDig_finish (s : State) (d : Vector Byte 40) :
    (s.setDig d).finish = { s with dig := d, pend := 0, done := true } := rfl

/-- Settles O16: no check of its own, then the completion, which differs in DIG, PEND and DONE alone. -/
theorem formatRendersDigest : Obligations.FormatRendersDigest := by
  refine ⟨rfl, fun s hp he => exec_accepts hp he (checkOf_format s), fun s hp => ?_⟩
  refine ⟨bufferOf 40 (digest s.h), ?_, fun p hlt => bufferOf_digest_getElem s.h hlt⟩
  rw [exec_in_flight (i := .format) hp, effectOf_format, formatEffect_eq, setDig_finish]

end Sys2Proof.Machine
end

section
/-! # Proofs: the Core's turn (R95, R118), and that every turn answers a next state (R104) -/

namespace Sys2Proof.Machine

open Sys2Proof.Spec

variable {s t : State} {q : List Input} {i : Instr}

theorem nextTurn_of_coreNext (hq : CoreNext s q) : nextTurn s = coreTurn (s.withInput q) := by
  obtain ⟨hi, rfl⟩ | hi := hq
  · rw [nextTurn_silent hi, withInput_nil_of_silent hi]
  · exact nextTurn_complete hi

theorem coreTurn_idle (hp : s.pend = 0) : coreTurn s = .quiet s := if_pos hp

theorem coreTurn_in_flight (hp : s.pend = opcodeOf i) : coreTurn s = .command i s := by
  rw [coreTurn, if_neg (hp.trans_ne (opcodeOf_ne_zero i)), hp, commandOf_opcodeOf]

theorem step_of_coreNext_in_flight (hq : CoreNext s q) (hp : s.pend = opcodeOf i) :
    step s = exec i (s.withInput q) := by
  have hturn : coreTurn (s.withInput q) = .command i (s.withInput q) := coreTurn_in_flight hp
  rw [step, nextTurn_of_coreNext hq, hturn]

theorem step_of_coreNext_idle (hq : CoreNext s q) (hp : s.pend = 0) : step s = .next (s.withInput q) := by
  have hturn : coreTurn (s.withInput q) = .quiet (s.withInput q) := coreTurn_idle hp
  rw [step, nextTurn_of_coreNext hq, hturn]

theorem opcode_eq_opcodeOf (i : Instr) : opcode i = opcodeOf i := by cases i <;> rfl

/-- Settles O2: the Core's turn, with a command in flight and with none. -/
theorem stepCompletesCommandInFlight : Obligations.StepCompletesCommandInFlight := fun _ _ hq =>
  ⟨fun i hp => step_of_coreNext_in_flight hq (hp.trans (opcode_eq_opcodeOf i)), step_of_coreNext_idle hq⟩

/-- A PEND that the invariant allows is 0 or names a command. -/
theorem Invariant.exists_in_flight (h : Invariant s) (hp : s.pend ≠ 0) : ∃ i, s.pend = opcodeOf i := by
  cases hc : commandOf s.pend with
  | some i => exact ⟨i, opcodeOf_of_commandOf hc⟩
  | none =>
    rcases (commandOf_eq_none_iff _).1 hc with h0 | h8
    · exact absurd (BitVec.eq_of_toNat_eq h0) hp
    · exact absurd (h8.trans h.pendLegal) (by decide)

/-- Settles O52: the completion writes PEND and DONE, and no effect writes ERR or the queue. -/
theorem acceptedCommandCompletes : Obligations.AcceptedCommandCompletes := by
  intro s q h hp hq
  obtain ⟨i, hop⟩ := h.exists_in_flight hp
  have hkeeps := effect_keeps i (s.withInput q)
  have herr : s.err = false := (h.busyClear (busy_eq_true.2 hp)).2
  exact ⟨_, (step_of_coreNext_in_flight hq hop).trans (exec_in_flight hop), rfl, rfl, hkeeps.err.trans herr,
    hkeeps.input⟩

/-- A command answers a next state in both of its moments. -/
theorem exists_exec_next (i : Instr) (s : State) : ∃ t, exec i s = .next t := by
  by_cases hp : s.pend = opcodeOf i
  · exact ⟨_, exec_in_flight hp⟩
  · exact ⟨_, exec_not_in_flight hp⟩

/-- The turns that are no fault. -/
def Turn.GoesOn (r : Turn) : Prop := ∀ f, r ≠ .stuck f

theorem Turn.goesOn_quiet (s : State) : (Turn.quiet s).GoesOn := nofun

theorem Turn.goesOn_command (i : Instr) (s : State) : (Turn.command i s).GoesOn := nofun

theorem exists_step_of_goesOn (h : (nextTurn s).GoesOn) : ∃ t, step s = .next t := by
  rw [step]
  cases hr : nextTurn s with
  | quiet t => exact ⟨t, rfl⟩
  | command i t => exact exists_exec_next i t
  | stuck f => exact absurd hr (h f)

theorem commandWrite_goesOn (v : Word) (s : State) : (commandWrite v s).GoesOn := by
  rw [commandWrite]
  split
  · exact Turn.goesOn_quiet _
  · exact Turn.goesOn_command _ _

theorem idleWrite_goesOn (o : Option Reg) (v : Word) (s : State) : (idleWrite o v s).GoesOn := by
  cases o with
  | none => exact Turn.goesOn_quiet s
  | some r =>
    cases r with
    | cmd => exact commandWrite_goesOn v s
    | _ => exact Turn.goesOn_quiet _

theorem hostWrite_goesOn (a v : Word) (s : State) : (hostWrite a v s).GoesOn := by
  by_cases hp : s.pend = 0
  · rw [hostWrite_idle a v (busy_eq_false.2 hp)]
    exact idleWrite_goesOn _ v s
  · obtain ⟨t, hw, -⟩ := WriteOutcome.exists_of_busy a v hp
    rw [hw]
    exact Turn.goesOn_quiet t

theorem Invariant.coreTurn_goesOn (h : Invariant s) : (coreTurn s).GoesOn := by
  by_cases hp : s.pend = 0
  · rw [coreTurn_idle hp]
    exact Turn.goesOn_quiet s
  · obtain ⟨i, hop⟩ := h.exists_in_flight hp
    rw [coreTurn_in_flight hop]
    exact Turn.goesOn_command i s

/-- Settles O51, by the input taken: only the Core's turn could stop, and the invariant excludes it. -/
theorem stepNeverStops : Obligations.StepNeverStops := by
  intro s h
  refine exists_step_of_goesOn ?_
  cases hi : s.input with
  | nil => exact nextTurn_silent hi ▸ h.coreTurn_goesOn
  | cons x q =>
    cases x with
    | read a => exact nextTurn_read hi ▸ Turn.goesOn_quiet _
    | write a v => exact nextTurn_write hi ▸ hostWrite_goesOn a v _
    | complete => exact nextTurn_complete hi ▸ (h.withInput q).coreTurn_goesOn
    | reset => exact nextTurn_reset hi ▸ Turn.goesOn_quiet _

end Sys2Proof.Machine
end

section
/-! # Proofs: BUSY is cleared (R96)

While a command is in flight every step either clears PEND or leaves a shorter queue. -/

namespace Sys2Proof.Machine

open Sys2Proof.Spec

variable {s t : State}

theorem ReadOutcome.input {a : Word} (h : ReadOutcome a s t) : t.input = s.input := by cases h <;> rfl

theorem WriteOutcome.input {a v : Word} (h : WriteOutcome a v s t) : t.input = s.input := by cases h <;> rfl

theorem StepOutcome.clears_or_shortens (h : StepOutcome s t) (hp : s.pend ≠ 0) :
    t.pend = 0 ∨ t.input.length < s.input.length := by
  cases h with
  | idles _ hp0 => exact absurd hp0 hp
  | completes => exact .inl rfl
  | resets => exact .inl rfl
  | reads hi hread => rw [hread.input, hi]; exact .inr (Nat.lt_succ_self _)
  | writes hi hwrite => rw [hwrite.input, hi]; exact .inr (Nat.lt_succ_self _)

/-- Settles O53, by induction on the length of the queue: the step clears PEND or the rest of the run is shorter. -/
theorem busyIsEventuallyCleared : Obligations.BusyIsEventuallyCleared := by
  intro s h hp
  induction hn : s.input.length using Nat.strong_induction_on generalizing s with
  | _ n ih =>
    obtain ⟨t, ht⟩ := stepNeverStops s h
    by_cases hclear : t.pend = 0
    · exact ⟨1, t, Nat.le_add_left 1 n, run_succ_of_step 0 ht, hclear⟩
    · have hshort := ((StepOutcome.of_step ht).clears_or_shortens hp).resolve_left hclear
      obtain ⟨k, u, hk, hrun, hu⟩ := ih _ (hn ▸ hshort) t (stepKeepsInvariant s t h ht) hclear rfl
      exact ⟨k + 1, u, by omega, (run_succ_of_step k ht).trans hrun, hu⟩

end Sys2Proof.Machine
end

section
/-! # Proofs: INIT (R90), and the checks, completion and frame of HASH (R91) -/

namespace Sys2Proof.Machine

open Sys2Proof.Spec

variable {s t : State}

/-- Settles O10: no check of its own, then the completion, which differs in H, PEND and DONE alone. -/
theorem initSetsHashState : Obligations.InitSetsHashState := by
  refine ⟨rfl, fun s hp he => exec_accepts hp he (checkOf_init s), fun s hp => ?_⟩
  rw [exec_in_flight (i := .init) hp, effectOf_init, initEffect_eq]
  rfl

/-- INIT and PAD write different registers: HASH may be read as PAD, then H ← IV, then its loop. -/
theorem padEffect_initEffect (s : State) : padEffect (initEffect s) = (padEffect s).setH iv := rfl

/-- DIG is the rendering of the new H. -/
theorem hashEffect_dig (s : State) : (hashEffect s).dig = bufferOf 40 (digest (hashEffect s).h) := by
  rw [hashEffect_eq, State.setDig_dig, State.setDig_h]

/-- What HASH leaves in PAD, PADLEN and NBLK is what its PAD left there. -/
theorem hashEffect_pad (s : State) : (hashEffect s).pad = (padEffect s).pad := by
  rw [hashEffect_eq, State.setDig_pad, (hashBlocks_same s).pad, padEffect_initEffect, State.setH_pad]

theorem hashEffect_padlen (s : State) : (hashEffect s).padlen = (padEffect s).padlen := by
  rw [hashEffect_eq, State.setDig_padlen, (hashBlocks_same s).padlen, padEffect_initEffect, State.setH_padlen]

theorem hashEffect_nblk (s : State) : (hashEffect s).nblk = (padEffect s).nblk := by
  rw [hashEffect_eq, State.setDig_nblk, (hashBlocks_same s).nblk, padEffect_initEffect, State.setH_nblk]

/-- A completion that keeps the operands writes only results, PEND and DONE. -/
theorem SameOperands.finish_eq (h : SameOperands s t) :
    t.finish = { s with h := t.h, v := t.v, w := t.w, blk := t.blk, dig := t.dig, pad := t.pad, padlen := t.padlen,
                        nblk := t.nblk, draws := t.draws, pend := 0, done := true } :=
  State.ext rfl rfl rfl rfl rfl h.msg rfl h.msglen h.blksel rfl rfl h.msgptr h.padptr h.ie rfl h.err h.drop h.errcode
    rfl h.msgCap h.input h.readData rfl

/-- Settles O17: the two length checks in order, then the completion: the frame, PAD from N on, and DIG. The state HASH
leaves is a variable once its facts are named, so that no comparison runs the loop. -/
theorem hashAcceptsAndCompletes : Obligations.HashAcceptsAndCompletes := by
  refine ⟨rfl, fun s hp he => exec_of_lengthCheck (checkOf_hash s) hp he, fun s hp => ?_⟩
  have hkeeps := effect_keeps .hash s
  have hdig := hashEffect_dig s
  have hpad := hashEffect_pad s
  rw [exec_in_flight (i := .hash) hp]
  rw [effectOf_hash] at hkeeps ⊢
  generalize hashEffect s = t at *
  refine ⟨t.finish, rfl, hkeeps.finish_eq, fun i hi => ?beyond, fun p hlt => ?digits⟩
  case beyond =>
    rw [State.finish_pad, hpad]
    exact (memGet_padEffect_pad s i).trans (if_neg (Nat.not_lt.2 hi))
  case digits =>
    simp only [State.finish_dig, State.finish_h, hdig]
    exact bufferOf_digest_getElem _ hlt

end Sys2Proof.Machine
end

section
/-! # Proofs: HASH computes SHA-1 of a written message (R91, R93, R94) -/

namespace Sys2Proof.Machine

open Sys2Proof.Spec

variable {s s' t : State} {m p : List Byte} {j n : Nat}

/-- What a pass of HASH's loop over block `j` of a padded message leaves in the datapath registers. -/
structure AfterBlock (p : List Byte) (j : Nat) (t : State) : Prop where
  h : t.h = chain p (j + 1)
  v : t.v = (compressList (chain p j) (scheduleList (block p j))).2
  w : t.w.toList = scheduleList (block p j)
  blk : t.blk.toList = block p j

/-- The datapath registers after a pass are the same in any two states. -/
theorem AfterBlock.unique (ht : AfterBlock p j t) (hs : AfterBlock p j s) :
    t.h = s.h ∧ t.v = s.v ∧ t.w = s.w ∧ t.blk = s.blk :=
  ⟨ht.h.trans hs.h.symm, ht.v.trans hs.v.symm, Vector.toList_inj.1 (ht.w.trans hs.w.symm),
    Vector.toList_inj.1 (ht.blk.trans hs.blk.symm)⟩

theorem AfterBlock.setDig (h : AfterBlock p j t) (d : Vector Byte 40) : AfterBlock p j (t.setDig d) :=
  ⟨h.h, h.v, h.w, h.blk⟩

/-- The rounds over a block's schedule, from the chain's value before that block. -/
theorem rounds_of_schedule {w : Vector Word 80} (hw : w.toList = scheduleList (block p j)) (hh : s.h = chain p j) :
    rounds s.h w = (compressList (chain p j) (scheduleList (block p j))).2 := by
  rw [← hw, ← hh, compressList_toList, compress_snd]

/-- Their feed-forward is the chain's next value. -/
theorem fiveAdd_rounds_of_schedule {w : Vector Word 80} (hw : w.toList = scheduleList (block p j))
    (hh : s.h = chain p j) : fiveAdd s.h (rounds s.h w) = chain p (j + 1) := by
  rw [chain, ← hw, ← hh, compressList_toList, compress_fst]

/-- The writes of a pass, for any words: that they are variables keeps the comparison from running the rounds. -/
theorem AfterBlock.of_writes {b : Vector Byte 64} {w : Vector Word 80} (d : Nat) (hb : b.toList = block p j)
    (hw : w.toList = scheduleList (block p j)) (hh : s.h = chain p j) :
    AfterBlock p j
      (((((s.setBlk b).withDraws d).setW w).setV (rounds s.h w)).setH (fiveAdd s.h (rounds s.h w))) where
  h := fiveAdd_rounds_of_schedule hw hh
  v := rounds_of_schedule hw hh
  w := hw
  blk := hb

/-- The pass written out for the buffer it reads: that the buffer is a variable keeps the comparison from running the
rounds. -/
theorem AfterBlock.of_blk {b : Vector Byte 64} (hb : bufferOf 64 (paddedBlock j s).1 = b) (hblk : b.toList = block p j)
    (hh : s.h = chain p j) : AfterBlock p j (hashBlock s j) := by
  rw [hashBlock_eq, hb]
  exact .of_writes _ hblk (by rw [schedule_toList, hblk]) hh

theorem hashBlock_draws (s : State) (j : Nat) : (hashBlock s j).draws = (paddedBlock j s).2 := by
  rw [hashBlock_eq, State.setH_draws, State.setV_draws, State.setW_draws, State.withDraws_draws]

/-- One pass over a written block, from the hash state of the blocks before it. -/
theorem hashBlock_of_written (hpad : ∀ i, i < p.length → memGet s.pad i = p[i]?) (hj : 64 * j + 64 ≤ p.length)
    (hh : s.h = chain p j) : AfterBlock p j (hashBlock s j) ∧ (hashBlock s j).draws = s.draws := by
  have hread := paddedBlock_of_written hpad hj
  exact ⟨.of_blk rfl (by rw [hread, bufferOf_toList (block_length hj)]) hh, by rw [hashBlock_draws, hread]⟩

/-- HASH's loop over written blocks ends with the last block's pass, and draws nothing. -/
theorem foldl_hashBlock_of_written (hpad : ∀ i, i < p.length → memGet s.pad i = p[i]?) (hn : 64 * (n + 1) ≤ p.length)
    (hh : s.h = chain p 0) : AfterBlock p n ((List.range (n + 1)).foldl hashBlock s) ∧
      ((List.range (n + 1)).foldl hashBlock s).draws = s.draws := by
  induction n with
  | zero => exact hashBlock_of_written hpad hn hh
  | succ n ih =>
    obtain ⟨hbefore, hdraws⟩ := ih (by omega)
    have hpad' := (foldl_hashBlock_same (List.range (n + 1)) s).pad ▸ hpad
    obtain ⟨hafter, hdraws'⟩ := hashBlock_of_written hpad' (by omega) hbefore.h
    rw [List.range_succ, List.foldl_append, List.foldl_cons, List.foldl_nil]
    exact ⟨hafter, hdraws'.trans hdraws⟩

theorem padLoop_length (m : List Byte) : (padLoop m).length = padlen m.length := by
  rw [← padMessage_eq_padLoop, padMessage_length]

theorem msgLength_of_messageIs (hm : MessageIs s m) : msgLength s = m.length := hm.1.symm

/-- After PAD of a written message PAD holds the padded message. -/
theorem memGet_padEffect_pad_of_messageIs (hm : MessageIs s m) {i : Nat} (hi : i < padlen m.length) :
    memGet (padEffect s).pad i = (padLoop m)[i]? := by
  rw [memGet_padEffect_pad, msgLength_of_messageIs hm, if_pos hi, message_of_messageIs hm, padMessage_eq_padLoop]

/-- On a written message the loop runs over the blocks of the padded message. -/
theorem hashBlocks_of_messageIs (hm : MessageIs s m) :
    AfterBlock (padLoop m) (padlen m.length / 64 - 1) (hashBlocks s) ∧ (hashBlocks s).draws = s.draws := by
  obtain ⟨n, hn⟩ : ∃ n, padlen m.length = 64 * (n + 1) := ⟨(m.length + 8) / 64, rfl⟩
  have hcount : padlen m.length / 64 = n + 1 := by omega
  have hdraws : (padEffect s).draws = s.draws := by rw [padEffect_draws, message_of_messageIs hm]
  have hpad : ∀ i, i < (padLoop m).length → memGet (padEffect s).pad i = (padLoop m)[i]? := fun i hi =>
    memGet_padEffect_pad_of_messageIs hm (padLoop_length m ▸ hi)
  rw [hashBlocks, msgLength_of_messageIs hm, hcount, padEffect_initEffect, Nat.add_sub_cancel, ← hdraws]
  generalize padEffect s = u at hpad
  exact foldl_hashBlock_of_written (s := u.setH iv) hpad (padLoop_length m ▸ hn.ge) rfl

/-- HASH's FORMAT leaves the registers of the last pass. -/
theorem hashEffect_of_messageIs (hm : MessageIs s m) :
    AfterBlock (padLoop m) (padlen m.length / 64 - 1) (hashEffect s) ∧ (hashEffect s).draws = s.draws := by
  obtain ⟨hafter, hdraws⟩ := hashBlocks_of_messageIs hm
  rw [hashEffect_eq]
  exact ⟨hafter.setDig _, by rw [State.setDig_draws, hdraws]⟩

theorem chain_eq_sha1 (m : List Byte) : chain (padLoop m) (padlen m.length / 64 - 1 + 1) = sha1 m := by
  have hpos : 0 < padlen m.length / 64 := by unfold padlen; omega
  rw [sha1, padLoop_length, Nat.sub_add_cancel hpos]

/-- Settles O18: the datapath from the last block's pass, PAD, PADLEN and NBLK from HASH's PAD. -/
theorem hashComputesSha1 : Obligations.HashComputesSha1 := by
  intro s m hp hcap hfits hm
  obtain ⟨hafter, hdraws⟩ := hashEffect_of_messageIs hm
  have hdig := hashEffect_dig s
  have hpad := hashEffect_pad s
  have hpadlen := hashEffect_padlen s
  have hnblk := hashEffect_nblk s
  have hlt := padlen_lt_of_le_msgCap hcap hfits
  rw [exec_in_flight (i := .hash) hp, effectOf_hash]
  generalize hashEffect s = t at *
  have hh : t.h = sha1 m := hafter.h.trans (chain_eq_sha1 m)
  refine ⟨t.finish, rfl, hh, fun p hlt => ?dig, ?padlen, ?nblk, fun i hi => ?pad, hafter.blk, hafter.w, ?v, hdraws⟩
  case dig =>
    simp only [State.finish_dig, hdig, hh]
    exact bufferOf_digest_getElem _ hlt
  case padlen => rw [State.finish_padlen, hpadlen, padEffect_padlen_toNat hlt, msgLength_of_messageIs hm]
  case nblk => rw [State.finish_nblk, hnblk, padEffect_nblk_toNat hlt, msgLength_of_messageIs hm]
  case pad => rw [State.finish_pad, hpad, memGet_padEffect_pad_of_messageIs hm hi]
  case v => rw [State.finish_v, State.finish_w, hafter.w, hafter.v]

/-- PADLEN and NBLK depend only on MSGLEN. -/
theorem hashEffect_lengths_congr (h : s.msglen = s'.msglen) :
    (hashEffect s).padlen = (hashEffect s').padlen ∧ (hashEffect s).nblk = (hashEffect s').nblk := by
  rw [hashEffect_padlen, hashEffect_padlen, hashEffect_nblk, hashEffect_nblk, padEffect_eq, padEffect_eq, msgLength, h,
    msgLength]
  exact ⟨rfl, rfl⟩

/-- Settles O20: the loop's results are functions of the message alone, and so are PAD, PADLEN, NBLK and DIG. -/
theorem hashDependsOnlyOnMessage : Obligations.HashDependsOnlyOnMessage := by
  intro s s' t t' m hp hp' hmsglen hm hm' hexec hexec'
  obtain ⟨hh, hv, hw, hblk⟩ := (hashEffect_of_messageIs hm).1.unique (hashEffect_of_messageIs hm').1
  obtain ⟨hpadlen, hnblk⟩ := hashEffect_lengths_congr hmsglen
  have hdig : (hashEffect s).dig = (hashEffect s').dig := by rw [hashEffect_dig, hashEffect_dig, hh]
  have hpad : ∀ i, i < padlen s.msglen.toNat → memGet (hashEffect s).pad i = memGet (hashEffect s').pad i := by
    intro i hi
    have hi' : i < padlen m.length := msgLength_of_messageIs hm ▸ hi
    rw [hashEffect_pad, hashEffect_pad, memGet_padEffect_pad_of_messageIs hm hi',
      memGet_padEffect_pad_of_messageIs hm' hi']
  rw [exec_in_flight (i := .hash) hp, effectOf_hash] at hexec
  rw [exec_in_flight (i := .hash) hp', effectOf_hash] at hexec'
  generalize hashEffect s = u at *
  generalize hashEffect s' = u' at *
  obtain rfl := Host.Outcome.next.inj hexec
  obtain rfl := Host.Outcome.next.inj hexec'
  exact ⟨hh, hv, hw, hblk, hdig, hpadlen, hnblk, hpad⟩

end Sys2Proof.Machine
end

section
/-! # Proofs: HASH and the stage path (R92)

No effect reads what acceptance and completion write, and HASH's loop does not read BLKSEL. So the completions and the
BLKSEL writes between the stages may be moved to the end, and what is left is HASH's own sequence of effects. -/

namespace Sys2Proof.Machine

variable {s u : State} {i : Instr} {f : State → State}

/-! ### Updates of registers that the effects neither read nor write -/

/-- An update that leaves alone all that the effects read, BLKSEL apart, and commutes with all that they write. -/
structure Unread (f : State → State) : Prop where
  h (s : State) : (f s).h = s.h
  w (s : State) : (f s).w = s.w
  blk (s : State) : (f s).blk = s.blk
  msg (s : State) : (f s).msg = s.msg
  pad (s : State) : (f s).pad = s.pad
  msglen (s : State) : (f s).msglen = s.msglen
  draws (s : State) : (f s).draws = s.draws
  setH (s : State) (x : Five) : (f s).setH x = f (s.setH x)
  setV (s : State) (x : Five) : (f s).setV x = f (s.setV x)
  setW (s : State) (x : Vector Word 80) : (f s).setW x = f (s.setW x)
  setBlk (s : State) (x : Vector Byte 64) : (f s).setBlk x = f (s.setBlk x)
  setDig (s : State) (x : Vector Byte 40) : (f s).setDig x = f (s.setDig x)
  setPad (s : State) (m : Memory) (l n : Word) : (f s).setPad m l n = f (s.setPad m l n)
  withDraws (s : State) (d : Nat) : (f s).withDraws d = f (s.withDraws d)

theorem unread_accept (op : BitVec 4) : Unread (·.accept op) := by constructor <;> intros <;> rfl

theorem unread_finish : Unread State.finish := by constructor <;> intros <;> rfl

theorem unread_setBlksel (x : Word) : Unread (·.setBlksel x) := by constructor <;> intros <;> rfl

namespace Unread

variable (hf : Unread f)
include hf

theorem initEffect (s : State) : initEffect (f s) = f (initEffect s) := hf.setH s iv

theorem padEffect (s : State) : padEffect (f s) = f (padEffect s) := by
  have hmessage : message (f s) = message s := by
    rw [message, message, msgLength, msgLength, hf.msg, hf.msglen, hf.draws]
  rw [padEffect_eq, padEffect_eq, hmessage, msgLength, msgLength, hf.msglen, hf.pad, hf.setPad, hf.withDraws]

theorem splitBlock (j : Nat) (s : State) : splitBlock j (f s) = f (splitBlock j s) := by
  have hblock : paddedBlock j (f s) = paddedBlock j s := by rw [paddedBlock, paddedBlock, hf.pad, hf.draws]
  rw [splitBlock_eq, splitBlock_eq, hblock, hf.setBlk, hf.withDraws]

theorem schedEffect (s : State) : schedEffect (f s) = f (schedEffect s) := by
  rw [schedEffect_eq, schedEffect_eq, hf.blk, hf.w, hf.setW]

theorem compressEffect (s : State) : compressEffect (f s) = f (compressEffect s) := by
  rw [compressEffect_eq, compressEffect_eq, hf.h, hf.w, hf.setV, hf.setH]

theorem formatEffect (s : State) : formatEffect (f s) = f (formatEffect s) := by
  rw [formatEffect_eq, formatEffect_eq, hf.h, hf.setDig]

theorem hashBlock (s : State) (j : Nat) : hashBlock (f s) j = f (hashBlock s j) := by
  rw [Machine.hashBlock, Machine.hashBlock, hf.splitBlock, hf.schedEffect, hf.compressEffect]

theorem foldl_hashBlock (l : List Nat) (s : State) :
    l.foldl Machine.hashBlock (f s) = f (l.foldl Machine.hashBlock s) :=
  List.foldl_hom f hf.hashBlock

theorem hashEffect (s : State) : hashEffect (f s) = f (hashEffect s) := by
  rw [Machine.hashEffect, Machine.hashEffect, hf.initEffect, hf.padEffect, hf.foldl_hashBlock, hf.formatEffect,
    msgLength, msgLength, hf.msglen]

/-- SPLIT reads BLKSEL; no other effect does. -/
theorem effectOf (hsel : ∀ s, (f s).blksel = s.blksel) (i : Instr) (s : State) :
    effectOf i (f s) = f (effectOf i s) := by
  cases i with
  | init => exact hf.initEffect s
  | pad => exact hf.padEffect s
  | split => rw [effectOf_split, splitEffect_eq, splitEffect_eq, blockIndex, blockIndex, hsel, hf.splitBlock]
  | sched => exact hf.schedEffect s
  | compress => exact hf.compressEffect s
  | format => exact hf.formatEffect s
  | hash => exact hf.hashEffect s

end Unread

/-! ### A command run whole -/

theorem andThen_of_next {o : Host.Outcome State Fault Refusal} (h : o = .next s)
    (k : State → Host.Outcome State Fault Refusal) : andThen o k = k s := by
  rw [h, andThen]

theorem accept_finish (s : State) (op : BitVec 4) : (s.accept op).finish = s.finish := rfl

theorem finish_finish (s : State) : s.finish.finish = s.finish := rfl

/-- Acceptance before an effect, and a completion before it, are overwritten by the completion after it. -/
theorem effectOf_accept_finish (i : Instr) (s : State) (op : BitVec 4) :
    (effectOf i (s.accept op)).finish = (effectOf i s).finish := by
  rw [(unread_accept op).effectOf fun _ => rfl, accept_finish]

theorem effectOf_finish_finish (i : Instr) (s : State) : (effectOf i s.finish).finish = (effectOf i s).finish := by
  rw [unread_finish.effectOf fun _ => rfl, finish_finish]

/-- Presented to an idle block that finds no fault with it, a command is accepted and then completes. -/
theorem runCommandWhole_of_idle (hp : s.pend = 0) (he : s.err = false) (hc : checkOf s i = none) :
    runCommandWhole i s = .next (effectOf i s).finish := by
  have haccepted : (s.accept (opcodeOf i)).pend = opcodeOf i := State.accept_pend s _
  rw [runCommandWhole, andThen_of_next (exec_accepts hp he hc), exec_in_flight haccepted, effectOf_accept_finish]

/-- The same right after another completion. -/
theorem runCommandWhole_finish (he : s.err = false) (hc : checkOf s.finish i = none) :
    runCommandWhole i s.finish = .next (effectOf i s).finish := by
  have hrun : runCommandWhole i s.finish = .next (effectOf i s.finish).finish := runCommandWhole_of_idle rfl he hc
  rw [hrun, effectOf_finish_finish]

theorem effectOf_err (i : Instr) (he : s.err = false) : (effectOf i s).err = false := (effect_keeps i s).err.trans he

/-! ### The stage path -/

theorem finish_setBlksel (s : State) (x : Word) : s.finish.setBlksel x = (s.setBlksel x).finish := rfl

/-- One block of the stage path is one pass of HASH's loop, and BLKSEL. -/
theorem stageBlock_finish {j : Nat} (he : u.err = false) (hj : j < u.nblk.toNat) :
    stageBlock j u.finish = .next ((hashBlock u j).setBlksel (BitVec.ofNat 32 j)).finish := by
  have hindex : (BitVec.ofNat 32 j).toNat = j := Nat.mod_eq_of_lt (hj.trans u.nblk.isLt)
  rw [stageBlock, finish_setBlksel, ← (unread_setBlksel _).hashBlock]
  generalize hv : u.setBlksel (BitVec.ofNat 32 j) = v
  have hblockIndex : blockIndex v = j := hv ▸ hindex
  have hverr : v.err = false := hv ▸ he
  have hlt : blockIndex v < v.nblk.toNat := by
    rw [hblockIndex, ← hv]
    exact hj
  have hrange : checkOf v.finish .split = none := if_neg (Nat.not_le.2 hlt)
  have hsplit := runCommandWhole_finish hverr hrange
  have hsched := runCommandWhole_finish (effectOf_err .split hverr) (checkOf_sched _)
  have hcompress := runCommandWhole_finish (effectOf_err .sched (effectOf_err .split hverr)) (checkOf_compress _)
  rw [andThen_of_next hsplit, andThen_of_next hsched, hcompress, effectOf_compress, effectOf_sched, effectOf_split,
    splitEffect_eq, hblockIndex, hashBlock]

theorem setBlksel_setBlksel (s : State) (x y : Word) : (s.setBlksel x).setBlksel y = s.setBlksel y := rfl

/-- The blocks of the stage path are the passes of HASH's loop, and BLKSEL. -/
theorem stageBlocks_finish {l : List Nat} (he : u.err = false) (hl : ∀ j ∈ l, j < u.nblk.toNat) :
    ∃ x, stageBlocks l u.finish = .next ((l.foldl hashBlock u).setBlksel x).finish := by
  induction l generalizing u with
  | nil => exact ⟨u.blksel, rfl⟩
  | cons j l ih =>
    have hsame := hashBlock_same u j
    have hblock := stageBlock_finish he (hl j List.mem_cons_self)
    obtain ⟨x, hx⟩ := ih (u := (hashBlock u j).setBlksel (BitVec.ofNat 32 j))
      (by rw [State.setBlksel_err, hsame.err, he]) fun k hk => by
        rw [State.setBlksel_nblk, hsame.nblk]
        exact hl k (List.mem_cons_of_mem j hk)
    refine ⟨x, ?_⟩
    rw [stageBlocks, andThen_of_next hblock, hx, (unread_setBlksel _).foldl_hashBlock, setBlksel_setBlksel,
      List.foldl_cons]

/-- A message that fits MSG passes both length checks: MSG_CAP lies below 2^61. -/
theorem lengthCheck_of_le_msgCap (hcap : Config.MsgCapLegal s.msgCap) (hlen : msgLength s ≤ s.msgCap) :
    lengthCheck s = none := by
  obtain ⟨-, -, hle⟩ := hcap
  rw [lengthCheck, if_neg (by omega), if_neg (by omega)]

/-- The stage path is HASH's effects in their order, and BLKSEL. -/
theorem stagePath_of_idle (hp : s.pend = 0) (he : s.err = false) (hcap : Config.MsgCapLegal s.msgCap)
    (hlen : msgLength s ≤ s.msgCap) : ∃ x, stagePath s = .next ((hashEffect s).setBlksel x).finish := by
  have hcheck : checkOf (initEffect s).finish .pad = none := lengthCheck_of_le_msgCap hcap hlen
  have hnblk : (padEffect (initEffect s)).nblk.toNat = padlen (msgLength s) / 64 :=
    padEffect_nblk_toNat (s := initEffect s) (padlen_lt_of_le_msgCap hcap hlen)
  have hinit := runCommandWhole_of_idle hp he (checkOf_init s)
  have hpad := runCommandWhole_finish (s := initEffect s) he hcheck
  have herr : (padEffect (initEffect s)).err = false := effectOf_err .pad he
  obtain ⟨x, hblocks⟩ := stageBlocks_finish (l := List.range (padlen (msgLength s) / 64)) herr fun j hj => by
    rw [hnblk]
    exact List.mem_range.1 hj
  have hsame := foldl_hashBlock_same (List.range (padlen (msgLength s) / 64)) (padEffect (initEffect s))
  refine ⟨x, ?_⟩
  rw [stagePath, andThen_of_next hinit, effectOf_init, andThen_of_next hpad, effectOf_pad, State.finish_nblk, hnblk,
    andThen_of_next hblocks, hashEffect, ← (unread_setBlksel x).formatEffect]
  generalize (List.range (padlen (msgLength s) / 64)).foldl hashBlock (padEffect (initEffect s)) = v at hsame
  have hverr : (v.setBlksel x).err = false := hsame.err.trans herr
  exact runCommandWhole_finish hverr (checkOf_format _)

/-- Settles O19: both paths are HASH's effects in their order, and HASH writes no BLKSEL. -/
theorem hashEqualsStagePath : Obligations.HashEqualsStagePath := by
  intro s hp he hcap hlen _
  obtain ⟨x, hx⟩ := stagePath_of_idle hp he hcap hlen
  refine ⟨_, hx, ?_⟩
  have hrun : runCommandWhole .hash s = _ := runCommandWhole_of_idle hp he (lengthCheck_of_le_msgCap hcap hlen)
  have hsel : (hashEffect s).blksel = s.blksel := (effect_keeps .hash s).blksel
  rw [hrun, effectOf_hash, ← hsel]
  generalize hashEffect s = t
  rfl

end Sys2Proof.Machine
end

section
/-! # Proofs: the one outcome of a CMD write (R97, R98, R105, R106)

The reference order of R105 is the model's: the word is presented, an illegal one with its rejection, a legal one with
the check of its command. -/

namespace Sys2Proof.Machine

open Sys2Proof.Spec

variable {s t : State} {a v : Word} {q : List Input}

theorem present_dropped (op : BitVec 4) (check : Option CmdError) (h : s.pend ≠ 0 ∨ s.err = true) :
    present op check s = s.dropWrite := by
  obtain ⟨-, e⟩ | ⟨hp, he, -⟩ | ⟨hp, he, -⟩ := present_cases op check s
  · exact e
  all_goals simp [hp, he] at h

theorem cmdWrite_dropped (v : Word) (h : s.pend ≠ 0 ∨ s.err = true) : cmdWrite v s = s.dropWrite := by
  unfold cmdWrite
  by_cases hp : s.pend = 0
  · rw [if_neg (not_not_intro hp), if_pos (h.resolve_left (absurd hp))]
    rfl
  · rw [if_pos hp]
    rfl

/-- The illegal words as R105's order tests them. -/
theorem zero_or_eight_le_of_illegal (h : ∃ r, decode v = .illegal r) : v = 0 ∨ 8 ≤ v.toNat := by
  rw [exists_illegal_iff] at h
  bv_omega

/-- The order of R105 at an illegal word. -/
theorem cmdWrite_illegal (h : ∃ r, decode v = .illegal r) (s : State) :
    cmdWrite v s = present 0 (some .illegal) s := by
  by_cases hd : s.pend ≠ 0 ∨ s.err = true
  · rw [cmdWrite_dropped v hd, present_dropped _ _ hd]
  · obtain ⟨hp, he⟩ : s.pend = 0 ∧ s.err = false := by simpa using hd
    rw [present_eq_reject 0 .illegal hp he, cmdWrite, if_neg (not_not_intro hp), if_neg (by simp [he]),
      if_pos (zero_or_eight_le_of_illegal h)]
    rfl

/-- The order of R105 from the length check on, for a legal word on an idle block. -/
theorem cmdWrite_legal (hp : s.pend = 0) (he : s.err = false) (hv : ¬(v = 0 ∨ 8 ≤ v.toNat)) :
    cmdWrite v s =
      if (v = 2 ∨ v = 7) ∧ 2 ^ 61 ≤ msgLength s then s.reject .lenOvf
      else if (v = 2 ∨ v = 7) ∧ s.msgCap < msgLength s then s.reject .lenCap
      else if v = 3 ∧ s.nblk.toNat ≤ blockIndex s then s.reject .range
      else s.accept (v.setWidth 4) := by
  rw [cmdWrite, if_neg (not_not_intro hp), if_neg (by simp [he]), if_neg hv]
  rfl

/-- A command presented to an idle block meets R105's order: only this command's own check can reject its word. -/
theorem exec_eq_cmdWrite (i : Instr) (hp : s.pend = 0) : exec i s = .next (cmdWrite (encode i) s) := by
  by_cases herr : s.err = true
  · rw [exec_not_in_flight (hp.trans_ne (opcodeOf_ne_zero i).symm), present_dropped _ _ (.inr herr),
      cmdWrite_dropped _ (.inr herr)]
  · have he : s.err = false := Bool.eq_false_of_not_eq_true herr
    have hlegal : ¬(encode i = 0 ∨ 8 ≤ (encode i).toNat) := by cases i <;> decide
    have hopcode : (encode i).setWidth 4 = opcodeOf i := by cases i <;> rfl
    rw [cmdWrite_legal hp he hlegal, hopcode, encode_eq_commandWord]
    cases i with
    | pad | hash => simpa [commandWord] using exec_of_lengthCheck rfl hp he
    | split => simpa [commandWord] using exec_split_of_idle hp he
    | _ => exact exec_accepts hp he rfl

/-- Everything a CMD write can do to the status. -/
theorem cmdWrite_cases (v : Word) (s : State) :
    ((s.pend ≠ 0 ∨ s.err = true) ∧ cmdWrite v s = s.dropWrite) ∨
    (s.err = false ∧ ∃ e, cmdWrite v s = s.reject e) ∨
    (s.err = false ∧ ∃ i, cmdWrite v s = s.accept (opcodeOf i)) := by
  by_cases hd : s.pend ≠ 0 ∨ s.err = true
  · exact .inl ⟨hd, cmdWrite_dropped v hd⟩
  · obtain ⟨hp, he⟩ : s.pend = 0 ∧ s.err = false := by simpa using hd
    cases hdec : decode v with
    | illegal r =>
      have hpresent := cmdWrite_illegal ⟨r, hdec⟩ s
      exact .inr (.inl ⟨he, .illegal, hpresent.trans (present_eq_reject 0 .illegal hp he)⟩)
    | instr i =>
      rw [decode_eq_instr_iff.1 hdec]
      have hexec := exec_eq_cmdWrite i hp
      cases hc : checkOf s i with
      | some e => exact .inr (.inl ⟨he, e, Host.Outcome.next.inj (hexec.symm.trans (exec_rejects hp he hc))⟩)
      | none => exact .inr (.inr ⟨he, i, Host.Outcome.next.inj (hexec.symm.trans (exec_accepts hp he hc))⟩)

/-- Settles O6: dropped while BUSY = 1; else an illegal word is presented with its rejection, a legal one as its
command. -/
theorem commandWriteTakesFirstOutcome : Obligations.CommandWriteTakesFirstOutcome := by
  intro s a v q hi ho
  by_cases hp : s.pend = 0
  · cases hdec : decode v with
    | illegal r =>
      have hr : regAt (offsetOf a) = some .cmd := regAt_offsetOf_eq_some_iff.2 ho
      refine step_write_of_idleWrite hi hp ?_
      rw [hr, idleWrite, commandWrite_illegal hdec, ← cmdWrite_illegal ⟨r, hdec⟩]
      rfl
    | instr i =>
      rw [stepRunsPresentedCommand s a v q i hi ho hp hdec, decode_eq_instr_iff.1 hdec]
      exact exec_eq_cmdWrite (s := s.withInput q) i hp
  · rw [step_write_busy hi hp (by omega) (by omega)]
    exact congrArg _ (cmdWrite_dropped (s := s.withInput q) v (.inl hp)).symm

/-- The state after a CMD write. -/
theorem eq_cmdWrite_of_step (hi : s.input = .write a v :: q) (ho : off a = 0x00C) (h : step s = .next t) :
    t = cmdWrite v (s.withInput q) :=
  Host.Outcome.next.inj (h.symm.trans (commandWriteTakesFirstOutcome s a v q hi ho))

theorem irq_eq_ie_of_err (h : s.err = true) : irq s = s.ie := by simp [irq, h]

/-- Settles O7: of the outcomes only a rejection sets ERR. -/
theorem rejectionChangesOnlyStatus : Obligations.RejectionChangesOnlyStatus := by
  intro s t a v q hi ho he hstep ht
  obtain rfl := eq_cmdWrite_of_step hi ho hstep
  obtain ⟨-, hdrop⟩ | ⟨-, e, hrej⟩ | ⟨-, i, hacc⟩ := cmdWrite_cases v (s.withInput q)
  · rw [hdrop] at ht
    exact absurd (he.symm.trans ht) (by decide)
  · obtain ⟨hlo, hhi⟩ := errorCode_range e
    rw [hrej]
    exact ⟨rfl, hlo, hhi, irq_eq_ie_of_err rfl⟩
  · rw [hacc] at ht
    exact absurd (he.symm.trans ht) (by decide)

end Sys2Proof.Machine
end

section
/-! # Proofs: what ERR = 1 holds back, and the return from an error (R107, R108) -/

namespace Sys2Proof.Machine

open Sys2Proof.Spec

variable {s t : State} {a v : Word} {q : List Input}

/-- A write to any register but CMD and STATUS neither reads nor writes ERR. -/
theorem idleWrite_err_irrelevant {o : Option Reg} (hcmd : o ≠ some .cmd) (hstatus : o ≠ some .status) (v : Word)
    (s : State) : ∃ t : State, ∀ b, idleWrite o v { s with err := b } = .quiet { t with err := b } := by
  cases o with
  | none => exact ⟨s, fun _ => rfl⟩
  | some r =>
    cases r with
    | cmd => exact absurd rfl hcmd
    | status => exact absurd rfl hstatus
    | msgdata =>
      refine ⟨msgDataWrite v s, fun b => ?_⟩
      simp only [idleWrite, msgDataWrite]
      split <;> rfl
    | ctrl => exact ⟨s.setIe _, fun _ => rfl⟩
    | msglenLo => exact ⟨s.setMsglen (s.msglen.extractLsb' 32 32 ++ v), fun _ => rfl⟩
    | msglenHi => exact ⟨s.setMsglen (v ++ s.msglen.extractLsb' 0 32), fun _ => rfl⟩
    | blksel => exact ⟨s.setBlksel _, fun _ => rfl⟩
    | msgptr => exact ⟨s.setMsgptr _, fun _ => rfl⟩
    | padptr => exact ⟨s.setPadptr _, fun _ => rfl⟩
    | _ => exact ⟨s, fun _ => rfl⟩

/-- Settles O8: a CMD write is the drop of R105, and every other write leaves ERR out of account. -/
theorem errorHoldsBackCommands : Obligations.ErrorHoldsBackCommands := by
  intro s a v q hi hp he
  refine ⟨fun ho => ?_, fun hcmd hstatus => ?_⟩
  · rw [commandWriteTakesFirstOutcome s a v q hi ho]
    exact congrArg _ (cmdWrite_dropped (s := s.withInput q) v (.inr he))
  · obtain ⟨t, ht⟩ := idleWrite_err_irrelevant (mt regAt_offsetOf_eq_some_iff.1 hcmd)
      (mt regAt_offsetOf_eq_some_iff.1 hstatus) v (s.withInput q)
    have hself : { s.withInput q with err := true } = s.withInput q := by rw [← he]; rfl
    exact ⟨{ t with err := false }, step_write_of_idleWrite hi hp (ht false),
      step_write_of_idleWrite hi hp (hself ▸ ht true)⟩

theorem step_reset (hi : s.input = .reset :: q) : step s = .next (resetInput (s.withInput q)) := by
  rw [step, nextTurn_reset hi]

/-- With BUSY = 0 and ERR = 0 a CMD write is rejected or accepted, and neither touches DROP. -/
theorem cmdWrite_not_dropped (v : Word) (hp : s.pend = 0) (he : s.err = false) :
    (cmdWrite v s).drop = s.drop ∧ ((cmdWrite v s).pend ≠ 0 ∨ (cmdWrite v s).err = true) := by
  obtain ⟨hd, -⟩ | ⟨-, e, hrej⟩ | ⟨-, i, hacc⟩ := cmdWrite_cases v s
  · simp [hp, he] at hd
  · rw [hrej]
    exact ⟨rfl, .inr rfl⟩
  · rw [hacc]
    exact ⟨rfl, .inl (opcodeOf_ne_zero i)⟩

/-- Settles O9: reset clears ERR; the STATUS write clears it, and a CMD write after it finds ERR = 0. -/
theorem statusWriteReturnsFromError : Obligations.StatusWriteReturnsFromError := by
  refine ⟨fun s q hi => ⟨_, step_reset hi, rfl⟩, fun s a v q hi ho hv => ?_⟩
  refine ⟨_, step_write_status hi ho, by simp [hv], fun a' v' q' hq ho' hp => ?_⟩
  exact ⟨_, commandWriteTakesFirstOutcome _ a' v' q' hq ho', cmdWrite_not_dropped v' hp (by simp [hv])⟩

end Sys2Proof.Machine
end

section
/-! # Proofs: the level of `irq` and the ways it falls (R110) -/

namespace Sys2Proof.Machine

open Sys2Proof.Spec

variable {s : State}

theorem irq_eq_true_iff (s : State) : irq s = true ↔ s.ie = true ∧ (s.done = true ∨ s.err = true) := by
  simp [irq]

theorem irq_eq_false_of_ie (h : s.ie = false) : irq s = false := by simp [irq, h]

theorem irq_eq_false_of_done_err (hd : s.done = false) (he : s.err = false) : irq s = false := by simp [irq, hd, he]

/-- Settles O46: a STATUS write clears DONE and ERR, a CTRL write IE, and acceptance DONE with ERR = 0 before it. -/
theorem irqLevel : Obligations.IrqLevel := by
  refine ⟨irq_eq_true_iff, rfl, fun s t a v q hi hstep => ?_⟩
  refine ⟨fun ho hdone herr => ?_, fun ho hie => ?_, fun ho hp ht => ?_⟩
  · obtain rfl := Host.Outcome.next.inj (hstep.symm.trans (step_write_status hi ho))
    exact irq_eq_false_of_done_err (by simp [hdone]) (by simp [herr])
  · obtain rfl := Host.Outcome.next.inj (hstep.symm.trans (step_write_ctrl hi ho))
    exact irq_eq_false_of_ie hie
  · obtain rfl := eq_cmdWrite_of_step hi ho hstep
    obtain ⟨-, hdrop⟩ | ⟨-, e, hrej⟩ | ⟨he, i, hacc⟩ := cmdWrite_cases v (s.withInput q)
    · rw [hdrop] at ht
      exact absurd hp ht
    · rw [hrej] at ht
      exact absurd hp ht
    · rw [hacc]
      exact irq_eq_false_of_done_err rfl he

end Sys2Proof.Machine
end

section
/-! # Proofs: reset, and the bytes of MSG not written since (R119 to R122) -/

namespace Sys2Proof.Machine

open Sys2Proof.Spec

variable {m : Memory} {i : Nat}

/-- Where only the first byte of a read is unwritten, that byte is the draw and the rest are read as they are. -/
theorem memRead_first_unwritten (d : Nat) (bs : List Byte) (h : memGet m i = none)
    (hbs : ∀ j, j < bs.length → memGet m (i + 1 + j) = bs[j]?) :
    memRead m i (bs.length + 1) d = (Config.freeByte d :: bs, d + 1) := by
  have hfirst : memReadByte m i d = (Config.freeByte d, d + 1) := by rw [memReadByte, h]
  rw [memRead, hfirst, memRead_all_written m (i + 1) (d + 1) bs hbs]

/-- The bus word whose first byte is unwritten: R121 at the width of a port. -/
theorem memRead_word_first_unwritten {b1 b2 b3 : Byte} (d : Nat) (h0 : memGet m i = none)
    (h1 : memGet m (i + 1) = some b1) (h2 : memGet m (i + 2) = some b2) (h3 : memGet m (i + 3) = some b3) :
    memRead m i 4 d = ([Config.freeByte d, b1, b2, b3], d + 1) :=
  memRead_first_unwritten d [b1, b2, b3] h0 fun
    | 0, _ => h1
    | 1, _ => h2
    | 2, _ => h3
    | _ + 3, hj => absurd hj (by simp)

/-- Settles O37: the port's four-byte read draws its first byte and answers the word big-endian. -/
theorem unwrittenMessageByteIsDrawn : Obligations.UnwrittenMessageByteIsDrawn := by
  intro s a q b1 b2 b3 hi hp ho hin h0 h1 h2 h3
  have hread := memRead_word_first_unwritten s.draws h0 h1 h2 h3
  have hword : be32List [Config.freeByte s.draws, b1, b2, b3] 0 = Config.freeByte s.draws ++ b1 ++ b2 ++ b3 :=
    be32_eq_append _ _ _ _
  rw [step_read_msgdata hi hp ho, msgDataRead_inRange (s := s.withInput q) hin, State.withInput_msg,
    State.withInput_msgptr, State.withInput_draws, hread, hword]
  rfl

/-- The IV that the model resets H to is the reference reading's (R23). -/
theorem iv_eq_initialState : iv = initialState := rfl

/-- Settles O47: the registers are the fields of `State.resetWith`, and a buffer that lists nothing defines no byte. -/
theorem resetState : Obligations.ResetState :=
  ⟨iv_eq_initialState, rfl, fun i => Vector.getElem_replicate i.isLt, fun i => Vector.getElem_replicate i.isLt,
    fun i => Vector.getElem_replicate i.isLt, memGet_nil, memGet_nil, rfl, rfl, rfl, rfl, rfl, rfl, rfl, rfl, rfl, rfl,
    rfl, rfl, irq_eq_false_of_ie rfl, fun _ => rfl⟩

/-- Settles O48: the step is `resetInput` whatever PEND holds, and that takes every element of the block from
`State.resetWith`. -/
theorem resetAbandonsCommand : Obligations.ResetAbandonsCommand := fun _ _ hi => ⟨_, step_reset hi, rfl⟩

end Sys2Proof.Machine
end
